-- ==== Sys2Proof/Word.lean ====
section
/-! DEFINITION. The quantities of the block (00_scope.md R9). An address, mask, value, pointer or
register value is an unsigned number that is never truncated (92_eei_decisions.md D2, D3; log entry
13): a plain `Nat`. What the spec gives a width is a bit vector. -/

namespace Sys2Proof

/-- A bank, 0..3 (10_state.md R22): one of two bits in the place of two address lines. -/
abbrev Bank := BitVec 2

/-- A 16-bit word of the host bus, as V.ReadWord gives it (00_scope.md R12). -/
abbrev HostWord := BitVec 16

/-- The number of a host register, 0..7 (00_scope.md R12). -/
abbrev RegNum := BitVec 3

/-- A part number: an opaque key of the catalogue (92_eei_decisions.md D21; log entry 6). -/
abbrev PartNumber := Nat

end Sys2Proof
end

