-- ==== Sys2Proof/Syntax.lean ====
section
/-! DEFINITION. The names the spec enumerates, and `Instr`: one constructor per row of
spec/opcode_table.json (30_encoding.md R71, R77). -/

namespace Sys2Proof

/-- The eleven values of the sequencer register (10_state.md R21), in the source's listing order. -/
inductive ProtocolState where
  | disabled | enabled
  | alternate1 | alternate2 | alternate3
  | bitwise1 | bitwise2 | bitwise3
  | additive1 | additive2 | additive3
deriving DecidableEq, Repr

/-- The two processor families the owning system may name with HINT (30_encoding.md R60). -/
inductive HostFamily where
  | introspect | plain
deriving DecidableEq, Repr

/-- The tri-state hint (10_state.md R27). -/
inductive Hint where
  | unknown | plain | introspect
deriving DecidableEq, Repr

/-- The results the validator can give (46_cpu_context.md R170). `alternate3 w` carries the word
address `w` that matched `alt3`, from which the bank is taken (R176). -/
inductive Resolution where
  | alternate3 (w : Nat)
  | alternate2
  | enabled
deriving DecidableEq, Repr

/-- One constructor per row of the opcode table. `a` is the whole address word of the ACC. -/
inductive Instr where
  /-- ARM: its address is 0x0000, so it needs no operand (42_fsm_global_simple.md R111). -/
  | arm
  | disNop (a : Nat)
  | enBit1 (a : Nat)
  | enAdd1 (a : Nat)
  | enAlt1 (a : Nat)
  | enAlt2 (a : Nat)
  /-- EN.BANK: `i` is the index BankIndex gives for `a` (R113, R119). -/
  | enBank (a : Nat) (i : Bank)
  | enNop (a : Nat)
  | a1Alt2 (a : Nat)
  | a1Miss (a : Nat)
  | a2Alt3 (a : Nat)
  | a2Miss (a : Nat)
  | a3Alt4 (a : Nat)
  | a3Wait (a : Nat)
  | b1Bank (a : Nat)
  | b1Wait (a : Nat)
  | b2Clr0 (a : Nat)
  | b2Set0 (a : Nat)
  | b2Clr1 (a : Nat)
  | b2Set1 (a : Nat)
  | b2Esc (a : Nat)
  | b2Wait (a : Nat)
  | b3Bank (a : Nat)
  | b3Wait (a : Nat)
  | ad1Add2 (a : Nat)
  | ad1Miss (a : Nat)
  | ad2Plus1 (a : Nat)
  | ad2Plus2 (a : Nat)
  | ad2Esc (a : Nat)
  | ad2Wait (a : Nat)
  | ad3Bank (a : Nat)
  | ad3Wait (a : Nat)
  /-- CTX.A: `n` selects the register, `u` is ignored (30_encoding.md R66). -/
  | ctxA (n u : RegNum)
  /-- CTX.B: `n` selects the register, `u` is ignored (30_encoding.md R66). -/
  | ctxB (n u : RegNum)
  /-- K.ALT3: `w` is the word address that matched `alt3` (46_cpu_context.md R176). -/
  | kAlt3 (w : Nat)
  | kAlt2
  | kFail
  | cfg (pn : PartNumber)
  | hint (f : HostFamily)
  | rst
  | peek
  | diag
deriving DecidableEq, Repr

/-- What an instruction is written as: the address word of an ACC (30_encoding.md R61), the 16-bit
host opcode word (R66), the validator's answer for its three outcome rows (R77), or a system event
(R60), which has no bits. -/
inductive Code where
  | access (a : Nat)
  | hostOp (op : HostWord)
  | outcome (r : Resolution)
  | cfg (pn : PartNumber)
  | hint (f : HostFamily)
  | rst
  | peek
  | diag
deriving DecidableEq, Repr

end Sys2Proof
end

