-- ==== Sys2Proof/Config.lean ====
section
/-! DEFINITION. What one instance is configured with: the chip profile (10_state.md R28) and the
catalogue it is looked up in (00_scope.md R8); and the free values, constants with no body. -/

namespace Sys2Proof

/-- A mask-value pattern, or the explicit absent one (30_encoding.md R62). -/
inductive TriggerPattern where
  | absent
  | pattern (mask value : Nat)
deriving DecidableEq, Repr

/-- The ChipProfile record (30_encoding.md R63), in the order of the source's list. -/
structure Profile where
  startingBank : Bank
  bankAddress0 : Nat
  bankAddress1 : Nat
  bankAddress2 : Nat
  bankAddress3 : Nat
  alt1 : TriggerPattern
  alt2 : TriggerPattern
  alt3 : TriggerPattern
  alt4 : TriggerPattern
  altShift : Nat
  supportsBitwise : Bool
  bit1 : TriggerPattern
  bit2ClearBit0 : TriggerPattern
  bit2SetBit0 : TriggerPattern
  bit2ClearBit1 : TriggerPattern
  bit2SetBit1 : TriggerPattern
  bit3 : TriggerPattern
  supportsAdditive : Bool
  add1 : TriggerPattern
  add2 : TriggerPattern
  addPlus1 : TriggerPattern
  addPlus2 : TriggerPattern
  add3 : TriggerPattern
deriving DecidableEq, Repr

/-- The partial map from part numbers to profiles (41_profile_repository.md R100), as data: the
first entry of a part number counts (log entry 6). -/
abbrev Catalog := List (PartNumber × Profile)

namespace Config

/-- What pendingAltBank holds after the k-th CFG or RST: unspecified (10_state.md R33; log entry 4,
DESIGN CHOICE). -/
opaque unspecifiedAltBank : Nat → Bank

/-- What pendingBitBank holds after the k-th CFG or RST: unspecified (10_state.md R33; log entry 4,
DESIGN CHOICE). -/
opaque unspecifiedBitBank : Nat → Bank

/-- What pendingAddBank holds after the k-th CFG or RST: unspecified (10_state.md R33; log entry 4,
DESIGN CHOICE). -/
opaque unspecifiedAddBank : Nat → Bank

/-- Whether bitToggle holds 3 (else 0) after the k-th CFG or RST: unspecified (10_state.md R33; log
entry 4, DESIGN CHOICE). -/
opaque unspecifiedToggle : Nat → Bool

/-- `BankMap(bank, address)`, the address the protected memory device is given when the bank stands in
the place of two address lines: left to the platform (20_memory.md R43; log entry 23, DESIGN CHOICE). -/
opaque bankMap : Bank → Nat → Nat

end Config

end Sys2Proof
end

