-- ==== Sys2Proof/Machine/Operands.lean ====
section
/-! DEFINITION. Every operand the block computes: the comparator (40_trigger_pattern.md), the
bank-address comparator, and the field extractions of 30_encoding.md section 2. -/

namespace Sys2Proof

/-- `Match(p, a)` (40_trigger_pattern.md R90): both sides masked; an absent pattern never matches. -/
def TriggerPattern.accepts (p : TriggerPattern) (a : Nat) : Bool :=
  match p with
  | .absent => false
  | .pattern mask value => (a &&& mask) == (value &&& mask)

/-- `BankIndex(P, a)` (42_fsm_global_simple.md R113): equality over the whole address, the least
index first (the spec's decision D5; log entry 15). -/
def Profile.bankIndex (P : Profile) (a : Nat) : Option Bank :=
  if a = P.bankAddress0 then some 0
  else if a = P.bankAddress1 then some 1
  else if a = P.bankAddress2 then some 2
  else if a = P.bankAddress3 then some 3
  else none

/-- `bank?(a)` (30_encoding.md R71): some bank address equals `a`. -/
def Profile.isBankAddress (P : Profile) (a : Nat) : Bool :=
  (P.bankIndex a).isSome

/-- The condition of EN.BIT1 (42_fsm_global_simple.md R115): a false flag fails the check without
looking at the pattern (R114). -/
def Profile.startsBitwise (P : Profile) (a : Nat) : Bool :=
  P.supportsBitwise && P.bit1.accepts a

/-- The condition of EN.ADD1 (42_fsm_global_simple.md R116). -/
def Profile.startsAdditive (P : Profile) (a : Nat) : Bool :=
  P.supportsAdditive && P.add1.accepts a

/-- `(w >> altShift) & 3` (30_encoding.md R64). -/
def bankField (altShift : Nat) (w : Nat) : Bank :=
  BitVec.ofNat 2 ((w >>> altShift) &&& 3)

/-- `a ^ bitToggle` (30_encoding.md R65), the operand of the four twiddle compares. -/
def toggled (t : Bank) (a : Nat) : Nat :=
  a ^^^ t.toNat

/-- A host byte address as a word address (30_encoding.md R67, R68; log entry 18). -/
def wordAddress (byteAddress : Nat) : Nat :=
  byteAddress >>> 1

/-- `n = op[11:9]` (46_cpu_context.md R174), the parameter REGSEL (log entry 14, PRESUMED). -/
def registerSelect (op : HostWord) : RegNum :=
  op.extractLsb' 9 3

/-- `op[2:0]`, not used by the block (30_encoding.md R66). -/
def unusedField (op : HostWord) : RegNum :=
  op.extractLsb' 0 3

/-- `(op & 0xF1F8) == 0x3090` (46_cpu_context.md R173). -/
def isFormA (op : HostWord) : Bool :=
  (op &&& 0xF1F8#16) == 0x3090#16

/-- `(op & 0xF1F8) == 0xB148` (46_cpu_context.md R173). -/
def isFormB (op : HostWord) : Bool :=
  (op &&& 0xF1F8#16) == 0xB148#16

/-- The numbers of the eleven states (30_encoding.md R69); no rule reads them. -/
def ProtocolState.code : ProtocolState → Nat
  | .disabled => 0
  | .enabled => 1
  | .alternate1 => 2
  | .alternate2 => 3
  | .alternate3 => 4
  | .bitwise1 => 5
  | .bitwise2 => 6
  | .bitwise3 => 7
  | .additive1 => 8
  | .additive2 => 9
  | .additive3 => 10

/-- The names a diagnostics snapshot carries, spelled as in 10_state.md R21. -/
def ProtocolState.name : ProtocolState → String
  | .disabled => "Disabled"
  | .enabled => "Enabled"
  | .alternate1 => "Alternate1"
  | .alternate2 => "Alternate2"
  | .alternate3 => "Alternate3"
  | .bitwise1 => "Bitwise1"
  | .bitwise2 => "Bitwise2"
  | .bitwise3 => "Bitwise3"
  | .additive1 => "Additive1"
  | .additive2 => "Additive2"
  | .additive3 => "Additive3"

/-- The numbers of the hint values (30_encoding.md R70); no rule reads them. -/
def Hint.code : Hint → Nat
  | .unknown => 0
  | .plain => 1
  | .introspect => 2

/-- The hint value a HINT event sets (47_system_ops.md R193). -/
def HostFamily.hint : HostFamily → Hint
  | .introspect => .introspect
  | .plain => .plain

end Sys2Proof
end

