-- ==== Sys2Proof/WellFormed.lean ====
section
/-! DEFINITION. What a well-formed instruction and a consistent profile are, as decidable checks. -/

namespace Sys2Proof

/-- The operands of an instruction are ones its row can have: address 0x0000 always arms
(42_fsm_global_simple.md R111), so the address of every other ACC arm is not zero. Every value of
the other operands is legal. -/
def Instr.wellFormed : Instr → Bool
  | .arm => true
  | .disNop a => a != 0
  | .enBit1 a => a != 0
  | .enAdd1 a => a != 0
  | .enAlt1 a => a != 0
  | .enAlt2 a => a != 0
  | .enBank a _ => a != 0
  | .enNop a => a != 0
  | .a1Alt2 a => a != 0
  | .a1Miss a => a != 0
  | .a2Alt3 a => a != 0
  | .a2Miss a => a != 0
  | .a3Alt4 a => a != 0
  | .a3Wait a => a != 0
  | .b1Bank a => a != 0
  | .b1Wait a => a != 0
  | .b2Clr0 a => a != 0
  | .b2Set0 a => a != 0
  | .b2Clr1 a => a != 0
  | .b2Set1 a => a != 0
  | .b2Esc a => a != 0
  | .b2Wait a => a != 0
  | .b3Bank a => a != 0
  | .b3Wait a => a != 0
  | .ad1Add2 a => a != 0
  | .ad1Miss a => a != 0
  | .ad2Plus1 a => a != 0
  | .ad2Plus2 a => a != 0
  | .ad2Esc a => a != 0
  | .ad2Wait a => a != 0
  | .ad3Bank a => a != 0
  | .ad3Wait a => a != 0
  | .ctxA _ _ => true
  | .ctxB _ _ => true
  | .kAlt3 _ => true
  | .kAlt2 => true
  | .kFail => true
  | .cfg _ => true
  | .hint _ => true
  | .rst => true
  | .peek => true
  | .diag => true

/-- The spec's representation of a missing capability (10_state.md R29): a false flag goes with
absent patterns. The transition rules need no such premise, and CFG does not check it
(41_profile_repository.md R103). -/
def Profile.capabilitiesConsistent (P : Profile) : Bool :=
  (P.supportsBitwise ||
    [P.bit1, P.bit2ClearBit0, P.bit2SetBit0, P.bit2ClearBit1, P.bit2SetBit1, P.bit3].all
      (· == .absent)) &&
  (P.supportsAdditive ||
    [P.add1, P.add2, P.addPlus1, P.addPlus2, P.add3].all (· == .absent))

end Sys2Proof
end

