-- ==== Sys2Proof/Decode.lean ====
section
/-! DEFINITION. From codes to instructions and back. An ACC address is decoded under a mode
(30_encoding.md R71, R74); a host opcode word is decoded from its bits alone (R66). -/

namespace Sys2Proof

/-- What changes how a code is decoded (30_encoding.md R74): the profile, the sequencer, the toggle
and the hint. -/
structure Mode where
  profile : Profile
  protocolState : ProtocolState
  bitToggle : Bank
  hint : Hint
deriving DecidableEq, Repr

/-- Why a code decodes to no row. -/
inductive Reject where
  /-- The host opcode is neither pattern A nor pattern B (46_cpu_context.md R173). -/
  | neitherHostForm
  /-- The validator cannot answer so under this hint, or `alt3` does not accept the word address
  (46_cpu_context.md R170). -/
  | outcomeNotPossible
deriving DecidableEq, Repr

/-- The answer of the decoder: the rows an event runs, in order, or a rejection by name. -/
inductive Decoded where
  | rows (is : List Instr)
  | rejected (why : Reject)
deriving DecidableEq, Repr

/-- The rows of an answer; a rejection has none. -/
def Decoded.toList : Decoded → List Instr
  | .rows is => is
  | .rejected _ => []

/-- Enabled: five exclusive checks in a fixed order (42_fsm_global_simple.md R114). -/
def decodeEnabled (P : Profile) (a : Nat) : Instr :=
  if P.startsBitwise a then .enBit1 a
  else if P.startsAdditive a then .enAdd1 a
  else if P.alt1.accepts a then .enAlt1 a
  else if P.alt2.accepts a then .enAlt2 a
  else match P.bankIndex a with
    | some i => .enBank a i
    | none => .enNop a

/-- Bitwise2: an else-if chain, the four twiddles on the toggle-adjusted address, the escape on the
raw one (44_fsm_bitwise.md R147). -/
def decodeBitwise2 (P : Profile) (t : Bank) (a : Nat) : Instr :=
  if P.bit2ClearBit0.accepts (toggled t a) then .b2Clr0 a
  else if P.bit2SetBit0.accepts (toggled t a) then .b2Set0 a
  else if P.bit2ClearBit1.accepts (toggled t a) then .b2Clr1 a
  else if P.bit2SetBit1.accepts (toggled t a) then .b2Set1 a
  else if P.bit3.accepts a then .b2Esc a
  else .b2Wait a

/-- Additive2: three independent checks, all evaluated (45_fsm_additive.md R158); the rows in the
order of the checks, or AD2.WAIT when none holds (R162). -/
def decodeAdditive2 (P : Profile) (a : Nat) : List Instr :=
  match P.addPlus1.accepts a, P.addPlus2.accepts a, P.add3.accepts a with
  | false, false, false => [.ad2Wait a]
  | true, false, false => [.ad2Plus1 a]
  | false, true, false => [.ad2Plus2 a]
  | true, true, false => [.ad2Plus1 a, .ad2Plus2 a]
  | false, false, true => [.ad2Esc a]
  | true, false, true => [.ad2Plus1 a, .ad2Esc a]
  | false, true, true => [.ad2Plus2 a, .ad2Esc a]
  | true, true, true => [.ad2Plus1 a, .ad2Plus2 a, .ad2Esc a]

/-- The transition map (30_encoding.md R71): the arm an ACC address selects; arming first (R72). -/
def decodeAccess (m : Mode) (a : Nat) : List Instr :=
  if a = 0 then [.arm]
  else match m.protocolState with
    | .disabled => [.disNop a]
    | .enabled => [decodeEnabled m.profile a]
    | .alternate1 => [if m.profile.alt2.accepts a then .a1Alt2 a else .a1Miss a]
    | .alternate2 => [if m.profile.alt3.accepts a then .a2Alt3 a else .a2Miss a]
    | .alternate3 => [if m.profile.alt4.accepts a then .a3Alt4 a else .a3Wait a]
    | .bitwise1 => [if m.profile.isBankAddress a then .b1Bank a else .b1Wait a]
    | .bitwise2 => [decodeBitwise2 m.profile m.bitToggle a]
    | .bitwise3 => [if m.profile.isBankAddress a then .b3Bank a else .b3Wait a]
    | .additive1 => [if m.profile.add2.accepts a then .ad1Add2 a else .ad1Miss a]
    | .additive2 => decodeAdditive2 m.profile a
    | .additive3 => [if m.profile.isBankAddress a then .ad3Bank a else .ad3Wait a]

/-- The two accepted host opcode patterns with their fields (30_encoding.md R66); `none` for every
other word. -/
def decodeHostOp (op : HostWord) : Option Instr :=
  if isFormA op then some (.ctxA (registerSelect op) (unusedField op))
  else if isFormB op then some (.ctxB (registerSelect op) (unusedField op))
  else none

/-- The row an answer of the validator stands for (46_cpu_context.md R176 to R178), where the hint
and the profile allow that answer. -/
def decodeOutcome (m : Mode) (r : Resolution) : Option Instr :=
  match r with
  | .alternate3 w => if m.hint = .introspect ∧ m.profile.alt3.accepts w then some (.kAlt3 w) else none
  | .alternate2 => if m.hint = .plain then some .kAlt2 else none
  | .enabled => if m.hint = .introspect then some .kFail else none

/-- The whole decoder, total on every code. -/
def decode (m : Mode) (c : Code) : Decoded :=
  match c with
  | .access a => .rows (decodeAccess m a)
  | .hostOp op =>
    match decodeHostOp op with
    | some i => .rows [i]
    | none => .rejected .neitherHostForm
  | .outcome r =>
    match decodeOutcome m r with
    | some i => .rows [i]
    | none => .rejected .outcomeNotPossible
  | .cfg pn => .rows [.cfg pn]
  | .hint f => .rows [.hint f]
  | .rst => .rows [.rst]
  | .peek => .rows [.peek]
  | .diag => .rows [.diag]

/-- `0011 nnn 010 010 uuu` (30_encoding.md R66, pattern A). -/
def encodeFormA (n u : RegNum) : HostWord :=
  0b0011#4 ++ n ++ 0b010010#6 ++ u

/-- `1011 nnn 101 001 uuu` (30_encoding.md R66, pattern B). -/
def encodeFormB (n u : RegNum) : HostWord :=
  0b1011#4 ++ n ++ 0b101001#6 ++ u

/-- The encoder: an ACC arm is its address word (30_encoding.md R61), a host form its 16 bits (R66),
an outcome row the validator's answer, a system event itself (R60). -/
def encode (i : Instr) : Code :=
  match i with
  | .arm => .access 0
  | .disNop a => .access a
  | .enBit1 a => .access a
  | .enAdd1 a => .access a
  | .enAlt1 a => .access a
  | .enAlt2 a => .access a
  | .enBank a _ => .access a
  | .enNop a => .access a
  | .a1Alt2 a => .access a
  | .a1Miss a => .access a
  | .a2Alt3 a => .access a
  | .a2Miss a => .access a
  | .a3Alt4 a => .access a
  | .a3Wait a => .access a
  | .b1Bank a => .access a
  | .b1Wait a => .access a
  | .b2Clr0 a => .access a
  | .b2Set0 a => .access a
  | .b2Clr1 a => .access a
  | .b2Set1 a => .access a
  | .b2Esc a => .access a
  | .b2Wait a => .access a
  | .b3Bank a => .access a
  | .b3Wait a => .access a
  | .ad1Add2 a => .access a
  | .ad1Miss a => .access a
  | .ad2Plus1 a => .access a
  | .ad2Plus2 a => .access a
  | .ad2Esc a => .access a
  | .ad2Wait a => .access a
  | .ad3Bank a => .access a
  | .ad3Wait a => .access a
  | .ctxA n u => .hostOp (encodeFormA n u)
  | .ctxB n u => .hostOp (encodeFormB n u)
  | .kAlt3 w => .outcome (.alternate3 w)
  | .kAlt2 => .outcome .alternate2
  | .kFail => .outcome .enabled
  | .cfg pn => .cfg pn
  | .hint f => .hint f
  | .rst => .rst
  | .peek => .peek
  | .diag => .diag

/-- None of the checks before `alt2` holds in Enabled (42_fsm_global_simple.md R114, orders 1 to 3). -/
def Profile.passesToAlt2 (P : Profile) (a : Nat) : Bool :=
  !P.startsBitwise a && !P.startsAdditive a && !P.alt1.accepts a

/-- None of the checks before the bank address holds in Enabled (R114, orders 1 to 4). -/
def Profile.passesToBank (P : Profile) (a : Nat) : Bool :=
  P.passesToAlt2 a && !P.alt2.accepts a

/-- None of the four twiddles accepts the toggle-adjusted address (44_fsm_bitwise.md R147). -/
def Profile.noTwiddle (P : Profile) (t : Bank) (a : Nat) : Bool :=
  !P.bit2ClearBit0.accepts (toggled t a) && !P.bit2SetBit0.accepts (toggled t a) &&
  !P.bit2ClearBit1.accepts (toggled t a) && !P.bit2SetBit1.accepts (toggled t a)

/-- Whether the state and condition columns of the instruction's row hold under the mode
(30_encoding.md R71), each row by itself, "otherwise" and "reached only when" written out. -/
def Instr.selected (m : Mode) (i : Instr) : Bool :=
  let P := m.profile
  let x := toggled m.bitToggle
  match i with
  | .arm => true
  | .disNop a => a != 0 && m.protocolState == .disabled
  | .enBit1 a => a != 0 && m.protocolState == .enabled && P.startsBitwise a
  | .enAdd1 a => a != 0 && m.protocolState == .enabled && !P.startsBitwise a && P.startsAdditive a
  | .enAlt1 a => a != 0 && m.protocolState == .enabled && !P.startsBitwise a &&
      !P.startsAdditive a && P.alt1.accepts a
  | .enAlt2 a => a != 0 && m.protocolState == .enabled && P.passesToAlt2 a && P.alt2.accepts a
  | .enBank a i => a != 0 && m.protocolState == .enabled && P.passesToBank a &&
      P.bankIndex a == some i
  | .enNop a => a != 0 && m.protocolState == .enabled && P.passesToBank a && !P.isBankAddress a
  | .a1Alt2 a => a != 0 && m.protocolState == .alternate1 && P.alt2.accepts a
  | .a1Miss a => a != 0 && m.protocolState == .alternate1 && !P.alt2.accepts a
  | .a2Alt3 a => a != 0 && m.protocolState == .alternate2 && P.alt3.accepts a
  | .a2Miss a => a != 0 && m.protocolState == .alternate2 && !P.alt3.accepts a
  | .a3Alt4 a => a != 0 && m.protocolState == .alternate3 && P.alt4.accepts a
  | .a3Wait a => a != 0 && m.protocolState == .alternate3 && !P.alt4.accepts a
  | .b1Bank a => a != 0 && m.protocolState == .bitwise1 && P.isBankAddress a
  | .b1Wait a => a != 0 && m.protocolState == .bitwise1 && !P.isBankAddress a
  | .b2Clr0 a => a != 0 && m.protocolState == .bitwise2 && P.bit2ClearBit0.accepts (x a)
  | .b2Set0 a => a != 0 && m.protocolState == .bitwise2 && !P.bit2ClearBit0.accepts (x a) &&
      P.bit2SetBit0.accepts (x a)
  | .b2Clr1 a => a != 0 && m.protocolState == .bitwise2 && !P.bit2ClearBit0.accepts (x a) &&
      !P.bit2SetBit0.accepts (x a) && P.bit2ClearBit1.accepts (x a)
  | .b2Set1 a => a != 0 && m.protocolState == .bitwise2 && !P.bit2ClearBit0.accepts (x a) &&
      !P.bit2SetBit0.accepts (x a) && !P.bit2ClearBit1.accepts (x a) && P.bit2SetBit1.accepts (x a)
  | .b2Esc a => a != 0 && m.protocolState == .bitwise2 && P.noTwiddle m.bitToggle a &&
      P.bit3.accepts a
  | .b2Wait a => a != 0 && m.protocolState == .bitwise2 && P.noTwiddle m.bitToggle a &&
      !P.bit3.accepts a
  | .b3Bank a => a != 0 && m.protocolState == .bitwise3 && P.isBankAddress a
  | .b3Wait a => a != 0 && m.protocolState == .bitwise3 && !P.isBankAddress a
  | .ad1Add2 a => a != 0 && m.protocolState == .additive1 && P.add2.accepts a
  | .ad1Miss a => a != 0 && m.protocolState == .additive1 && !P.add2.accepts a
  | .ad2Plus1 a => a != 0 && m.protocolState == .additive2 && P.addPlus1.accepts a
  | .ad2Plus2 a => a != 0 && m.protocolState == .additive2 && P.addPlus2.accepts a
  | .ad2Esc a => a != 0 && m.protocolState == .additive2 && P.add3.accepts a
  | .ad2Wait a => a != 0 && m.protocolState == .additive2 && !P.addPlus1.accepts a &&
      !P.addPlus2.accepts a && !P.add3.accepts a
  | .ad3Bank a => a != 0 && m.protocolState == .additive3 && P.isBankAddress a
  | .ad3Wait a => a != 0 && m.protocolState == .additive3 && !P.isBankAddress a
  | .ctxA _ _ => true
  | .ctxB _ _ => true
  | .kAlt3 w => m.hint == .introspect && P.alt3.accepts w
  | .kAlt2 => m.hint == .plain
  | .kFail => m.hint == .introspect
  | .cfg _ => true
  | .hint _ => true
  | .rst => true
  | .peek => true
  | .diag => true

/-- The instruction read from a table row's bits. Only three rows have numbers for bits
(30_encoding.md R77): a 16-bit word of pattern A or B is CTX.A or CTX.B, and the address word 0 of
any width is ARM, which no mode can change (42_fsm_global_simple.md R111). The other ACC rows are
compared with parameters of the profile, so their bits alone select nothing. -/
def decodeTableWord (nbits w : Nat) : Option Instr :=
  if nbits = 0 then none
  else if w = 0 then some .arm
  else if nbits = 16 ∧ w < 2 ^ 16 then decodeHostOp (BitVec.ofNat 16 w)
  else none

end Sys2Proof
end

