-- ==== Sys2Proof/Machine/Flags.lean ====
section
/-! DEFINITION. The updates of the block's flag-like and accumulating registers (10_state.md R32):
the toggle, the four twiddles, the two increments. There are no condition codes. -/

namespace Sys2Proof

/-- The value bitToggle is seeded with (44_fsm_bitwise.md R141). -/
def toggleClear : Bank := 0#2

/-- `bitToggle ^ 3` (44_fsm_bitwise.md R143 to R146). -/
def toggleFlip (t : Bank) : Bank := t ^^^ 3#2

/-- `b & ~1` (44_fsm_bitwise.md R143). -/
def clearBit0 (b : Bank) : Bank := b &&& ~~~1#2

/-- `b | 1` (44_fsm_bitwise.md R144). -/
def setBit0 (b : Bank) : Bank := b ||| 1#2

/-- `b & ~2` (44_fsm_bitwise.md R145). -/
def clearBit1 (b : Bank) : Bank := b &&& ~~~2#2

/-- `b | 2` (44_fsm_bitwise.md R146). -/
def setBit1 (b : Bank) : Bank := b ||| 2#2

/-- `(b + 1) & 3` (45_fsm_additive.md R159): addition of 2-bit numbers keeps no carry. -/
def plusOne (b : Bank) : Bank := b + 1#2

/-- `(b + 2) & 3` (45_fsm_additive.md R160). -/
def plusTwo (b : Bank) : Bank := b + 2#2

end Sys2Proof
end

