-- ==== Sys2Proof/Machine/Memory.lean ====
section
/-! DEFINITION. The host bus space as the ProcessorView shows it (20_memory.md R40, space (3)): a
16-bit word at every address, read by the validator only. The block itself stores nothing. -/

namespace Sys2Proof.Machine

/-- The words of the host bus: `other` at every address but those listed in `cells`. The cells are
16-bit words, not bytes, because the block never splits a word (20_memory.md R44), and nothing ties
the words at neighbouring addresses together (00_scope.md R12; log entry 5). -/
structure Memory where
  other : HostWord
  cells : List (Nat × HostWord)
deriving DecidableEq, Repr

/-- Read a word from a list of cells. -/
def cellsRead (other : HostWord) : List (Nat × HostWord) → Nat → HostWord
  | [], _ => other
  | (b, w) :: rest, a => if a = b then w else cellsRead other rest a

/-- Write a word into a list of cells, keeping the canonical form: writing the word that unlisted
addresses read as takes the entry out. -/
def cellsWrite (other : HostWord) :
    List (Nat × HostWord) → Nat → HostWord → List (Nat × HostWord)
  | [], a, w => if w = other then [] else [(a, w)]
  | (b, x) :: rest, a, w =>
    if a < b then (if w = other then (b, x) :: rest else (a, w) :: (b, x) :: rest)
    else if a = b then (if w = other then rest else (a, w) :: rest)
    else (b, x) :: cellsWrite other rest a w

/-- Addresses strictly rising from `low` on, and no entry equal to what unlisted addresses read as. -/
def cellsWf (other : HostWord) (low : Nat) : List (Nat × HostWord) → Bool
  | [] => true
  | (b, x) :: rest => decide (low ≤ b) && x != other && cellsWf other (b + 1) rest

/-- `V.ReadWord(addr)`: total, one answer for every address (00_scope.md R12). -/
def Memory.read (m : Memory) (a : Nat) : HostWord :=
  cellsRead m.other m.cells a

/-- The host's own write, by which an owning system makes the view it hands over; no step of the
block uses it (00_scope.md R11). -/
def Memory.write (m : Memory) (a : Nat) (w : HostWord) : Memory :=
  { m with cells := cellsWrite m.other m.cells a w }

/-- The one canonical form of the data. -/
def Memory.wf (m : Memory) : Bool :=
  cellsWf m.other 0 m.cells

/-- A bus on which every word is 0. -/
def Memory.zero : Memory := { other := 0, cells := [] }

end Sys2Proof.Machine
end

