-- ==== Sys2Proof/Machine/State.lean ====
section
/-! DEFINITION. The state of one decoder instance (10_state.md), its inputs and outputs, the reasons
a step can stop, and the state after reset. -/

namespace Sys2Proof.Machine

/-- The ProcessorView handed over with an ACC (00_scope.md R12): the instruction pointer, a word at
every bus address, eight registers. -/
structure View where
  ip : Nat
  memory : Memory
  r0 : Nat
  r1 : Nat
  r2 : Nat
  r3 : Nat
  r4 : Nat
  r5 : Nat
  r6 : Nat
  r7 : Nat
deriving DecidableEq, Repr

/-- The events an owning system presents (30_encoding.md R60) and the observation DIAG
(47_system_ops.md R194). -/
inductive Event where
  | cfg (pn : PartNumber)
  | hint (f : HostFamily)
  | rst
  | peek
  | diag
  | acc (a : Nat) (v : View)
deriving DecidableEq, Repr

/-- A post-transition snapshot (47_system_ops.md R194). It has no timestamp, which is the owning
system's and has no definition here; `protocolState.name` is the name it carries. -/
structure Snapshot where
  address : Nat
  resultingBank : Bank
  protocolState : ProtocolState
deriving DecidableEq, Repr

/-- Why the machine stops with a fault. -/
inductive Fault where
  /-- Raised by CFG when the catalogue does not define the part number (60_exceptions.md R200);
  fatal at setup, no handler and no return (R201). Safe: the spec's own error. -/
  | configurationError (pn : PartNumber)
deriving DecidableEq, Repr

/-- Why an event has no meaning. -/
inductive Refusal where
  /-- An arm of exec with no meaning yet. No arm answers with it. Safe. -/
  | notModelled (mnemonic : String)
  /-- Raised by step when no event is presented: the block steps only on an event
  (00_scope.md R6, 60_exceptions.md R213; log entry 1). Safe. -/
  | noEvent
  /-- Raised by every event but CFG before a CFG has succeeded: there is no instance
  (60_exceptions.md R201; log entry 9). Safe. -/
  | noInstance
  /-- Raised by CFG on a live instance: not an operation (41_profile_repository.md R101; log
  entry 11). Safe. -/
  | reconfiguration
  /-- Raised by HINT when the hint is already set, whatever its value: "set once" (47_system_ops.md
  R193, 93_implementation_defined.md U4; log entry 10). Safe. -/
  | hintAlreadySet
  /-- Raised by HINT after the first ACC (47_system_ops.md R193; log entry 10). Safe. -/
  | hintAfterAccess
  /-- Raised by EN.ALT2 while the hint is Unknown (46_cpu_context.md R179: "a model refuses"; log
  entry 12). Safe. -/
  | hintUnknown
deriving DecidableEq, Repr

/-- The machine. The first seven fields are the DecoderState (10_state.md R20); `profile` is the
active ChipProfile (R28), `none` before CFG. The rest are parameters, inputs and outputs of the
step, and two fields of the model's own; INVENTORY.md names the rule of each. -/
structure State where
  protocolState : ProtocolState
  currentBank : Bank
  pendingAltBank : Bank
  pendingBitBank : Bank
  bitToggle : Bank
  pendingAddBank : Bank
  hostArchitectureHint : Hint
  profile : Option Profile
  catalog : Catalog
  events : List Event
  view : View
  result : Option Bank
  lastAccess : Option Snapshot
  sink : List Snapshot
  accessed : Bool
  freeCount : Nat
deriving DecidableEq, Repr

/-- A view in which everything reads 0, for events that are given none (30_encoding.md R60: the
view may be omitted where no arm consults it). -/
def View.zero : View :=
  { ip := 0, memory := Memory.zero, r0 := 0, r1 := 0, r2 := 0, r3 := 0, r4 := 0, r5 := 0, r6 := 0,
    r7 := 0 }

/-- The machine before any event: no profile selected, Disabled, hint Unknown (10_state.md R33).
DESIGN CHOICE, log entries 1 to 6: currentBank and the scratch registers are 0, no event is presented,
the view reads 0, the catalogue is empty. -/
def State.reset : State :=
  { protocolState := .disabled
    currentBank := 0
    pendingAltBank := 0
    pendingBitBank := 0
    bitToggle := 0
    pendingAddBank := 0
    hostArchitectureHint := .unknown
    profile := none
    catalog := []
    events := []
    view := View.zero
    result := none
    lastAccess := none
    sink := []
    accessed := false
    freeCount := 0 }

end Sys2Proof.Machine
end

