-- ==== Sys2Proof/Machine/Ops.lean ====
section
/-! DEFINITION. The named operations over the state. Each arm's meaning is made of these. -/

namespace Sys2Proof.Machine

/-- The outcome of a step of this machine. -/
abbrev Result := Host.Outcome State Fault Refusal

/-! ### Registers -/

/-- `S.protocolState <- p`. -/
def State.goto (s : State) (p : ProtocolState) : State := { s with protocolState := p }

/-- `S.currentBank <- b`. -/
def State.setBank (s : State) (b : Bank) : State := { s with currentBank := b }

/-- `S.pendingAltBank <- b`. -/
def State.setAlt (s : State) (b : Bank) : State := { s with pendingAltBank := b }

/-- `S.pendingBitBank <- b`. -/
def State.setBits (s : State) (b : Bank) : State := { s with pendingBitBank := b }

/-- `S.bitToggle <- t`. -/
def State.setToggle (s : State) (t : Bank) : State := { s with bitToggle := t }

/-- `S.pendingAddBank <- b`. -/
def State.setAdd (s : State) (b : Bank) : State := { s with pendingAddBank := b }

/-- `S.hostArchitectureHint <- h`. -/
def State.setHint (s : State) (h : Hint) : State := { s with hostArchitectureHint := h }

/-- `P <- P'`, the configuration registers (10_state.md R28). -/
def State.setProfile (s : State) (P : Profile) : State := { s with profile := some P }

/-- The value the event returns (30_encoding.md R60). -/
def State.answer (s : State) (r : Option Bank) : State := { s with result := r }

/-- A commit (00_scope.md R13): the bank is written and the sequencer goes to Disabled. -/
def State.commit (s : State) (b : Bank) : State := (s.setBank b).goto .disabled

/-- A successful twiddle (44_fsm_bitwise.md R143 to R146): one bit of the pending bank is forced by
`f` and the toggle is inverted; the state stays Bitwise2. -/
def State.twiddle (s : State) (f : Bank → Bank) : State :=
  (s.setBits (f s.pendingBitBank)).setToggle (toggleFlip s.bitToggle)

/-- The scratch registers take unspecified values (10_state.md R33; log entry 4): the free values at
the counter, which moves on. The toggle's is 0 or 3. -/
def State.unspecifyScratch (s : State) : State :=
  { s with
    pendingAltBank := Config.unspecifiedAltBank s.freeCount
    pendingBitBank := Config.unspecifiedBitBank s.freeCount
    bitToggle := if Config.unspecifiedToggle s.freeCount then 3#2 else 0#2
    pendingAddBank := Config.unspecifiedAddBank s.freeCount
    freeCount := s.freeCount + 1 }

/-- The reset of a DecoderState (10_state.md R33), shared by CFG and RST (70_reset_and_hazards.md
R220). -/
def State.initialise (s : State) (P : Profile) : State :=
  (s.unspecifyScratch.setBank P.startingBank).goto .disabled

/-- A fresh instance (41_profile_repository.md R101): the profile is selected, the DecoderState
reset, the hint Unknown, and no access has been presented to it. -/
def State.create (s : State) (P : Profile) : State :=
  { ((s.initialise P).setProfile P).setHint .unknown with accessed := false, lastAccess := none }

/-! ### Inputs and outputs of the step -/

/-- The ProcessorView of the triggering access (00_scope.md R12). -/
def State.present (s : State) (v : View) : State := { s with view := v }

/-- The event in hand leaves the list of presented events. -/
def State.dequeue (s : State) (rest : List Event) : State := { s with events := rest }

/-- `return S.currentBank` (42_fsm_global_simple.md R110, R121): what every ACC gives back after its
arm, and the snapshot of it that DIAG may forward (47_system_ops.md R194). -/
def State.respond (s : State) (a : Nat) : State :=
  { s with
    result := some s.currentBank
    lastAccess := some { address := a, resultingBank := s.currentBank, protocolState := s.protocolState }
    accessed := true }

/-- Where an access to `x` lands in the protected device under the current bank (20_memory.md R43; log
entry 23): the platform's function, which no arm consults. -/
def State.deviceAddress (s : State) (x : Nat) : Nat := Config.bankMap s.currentBank x

/-- The snapshot of the last ACC goes to the sink (47_system_ops.md R194); before the first ACC there
is none (log entry 8). -/
def State.forward (s : State) : State :=
  match s.lastAccess with
  | some p => { s with sink := p :: s.sink }
  | none => s

/-- `V.ReadReg(n)` (00_scope.md R12). -/
def View.readReg (v : View) (n : RegNum) : Nat :=
  match n.toNat with
  | 0 => v.r0
  | 1 => v.r1
  | 2 => v.r2
  | 3 => v.r3
  | 4 => v.r4
  | 5 => v.r5
  | 6 => v.r6
  | _ => v.r7

/-- `V.ReadWord(addr)` (00_scope.md R12). -/
def View.readWord (v : View) (addr : Nat) : HostWord := v.memory.read addr

/-- The mode the state decodes under, with its profile (30_encoding.md R74). -/
def State.mode (s : State) (P : Profile) : Mode :=
  { profile := P, protocolState := s.protocolState, bitToggle := s.bitToggle,
    hint := s.hostArchitectureHint }

/-! ### Outcomes -/

/-- What an event does to an instance; without one there is nothing it could apply to
(60_exceptions.md R201; log entry 9). -/
def onInstance (s : State) (k : Profile → Result) : Result :=
  match s.profile with
  | some P => k P
  | none => .refused .noInstance

/-- The block's one exception (60_exceptions.md R200): fatal at setup. No state is created, nothing
is saved, and there is no handler, no vector and no return (R201, R206). -/
def raiseConfigurationError (pn : PartNumber) : Result := .fault (.configurationError pn)

/-- The outcome's next state, changed by `f`; a stop stays. -/
def mapNext (f : State → State) (r : Result) : Result :=
  match r with
  | .next s => .next (f s)
  | .fault e => .fault e
  | .refused e => .refused e

/-- `Catalog(pn)` (41_profile_repository.md R100). -/
def lookupProfile (c : Catalog) (pn : PartNumber) : Option Profile :=
  match c with
  | [] => none
  | (k, P) :: rest => if k = pn then some P else lookupProfile rest pn

end Sys2Proof.Machine
end

