-- ==== Sys2Proof/Machine/Additive.lean ====
section
/-! DEFINITION. Additive mode (45_fsm_additive.md). In Additive2 one access runs up to three of the
parts, in the order PLUS1, PLUS2, ESC (R158). -/

namespace Sys2Proof.Machine

/-- R156: seed the pending bank from the current one. -/
def execAd1Add2 (_a : Nat) (s : State) : Result :=
  onInstance s fun _ => .next ((s.setAdd s.currentBank).goto .additive2)

/-- R157: fall back. -/
def execAd1Miss (_a : Nat) (s : State) : Result :=
  onInstance s fun _ => .next (s.goto .enabled)

/-- R159: a part; the sequencer is unchanged by it. -/
def execAd2Plus1 (_a : Nat) (s : State) : Result :=
  onInstance s fun _ => .next (s.setAdd (plusOne s.pendingAddBank))

/-- R160: a part, after PLUS1 of the same access. -/
def execAd2Plus2 (_a : Nat) (s : State) : Result :=
  onInstance s fun _ => .next (s.setAdd (plusTwo s.pendingAddBank))

/-- R161: a part; the increments of the escaping access are kept. -/
def execAd2Esc (_a : Nat) (s : State) : Result :=
  onInstance s fun _ => .next (s.goto .additive3)

/-- R162. -/
def execAd2Wait (_a : Nat) (s : State) : Result :=
  onInstance s fun _ => .next s

/-- R163: the pending bank is committed, not the index of the bank address. -/
def execAd3Bank (_a : Nat) (s : State) : Result :=
  onInstance s fun _ => .next (s.commit s.pendingAddBank)

/-- R164. -/
def execAd3Wait (_a : Nat) (s : State) : Result :=
  onInstance s fun _ => .next s

end Sys2Proof.Machine
end

