-- ==== Sys2Proof/Machine/Alternate.lean ====
section
/-! DEFINITION. Alternate mode (43_fsm_alternate.md). -/

namespace Sys2Proof.Machine

/-- R131. The validator is not consulted. -/
def execA1Alt2 (_a : Nat) (s : State) : Result :=
  onInstance s fun _ => .next (s.goto .alternate2)

/-- R132: fall back; the access is consumed. -/
def execA1Miss (_a : Nat) (s : State) : Result :=
  onInstance s fun _ => .next (s.goto .enabled)

/-- R133: capture; currentBank is not changed yet. -/
def execA2Alt3 (a : Nat) (s : State) : Result :=
  onInstance s fun P => .next ((s.setAlt (bankField P.altShift a)).goto .alternate3)

/-- R134: fall back. -/
def execA2Miss (_a : Nat) (s : State) : Result :=
  onInstance s fun _ => .next (s.goto .enabled)

/-- R135: commit. -/
def execA3Alt4 (_a : Nat) (s : State) : Result :=
  onInstance s fun _ => .next (s.commit s.pendingAltBank)

/-- R136: the block waits, with no timeout. -/
def execA3Wait (_a : Nat) (s : State) : Result :=
  onInstance s fun _ => .next s

end Sys2Proof.Machine
end

