-- ==== Sys2Proof/Machine/Bitwise.lean ====
section
/-! DEFINITION. Bitwise mode (44_fsm_bitwise.md). -/

namespace Sys2Proof.Machine

/-- R141: seed the pending bank from the current one; the index of the bank address is ignored. -/
def execB1Bank (_a : Nat) (s : State) : Result :=
  onInstance s fun _ => .next (((s.setBits s.currentBank).setToggle toggleClear).goto .bitwise2)

/-- R142. -/
def execB1Wait (_a : Nat) (s : State) : Result :=
  onInstance s fun _ => .next s

/-- R143. -/
def execB2Clr0 (_a : Nat) (s : State) : Result :=
  onInstance s fun _ => .next (s.twiddle clearBit0)

/-- R144. -/
def execB2Set0 (_a : Nat) (s : State) : Result :=
  onInstance s fun _ => .next (s.twiddle setBit0)

/-- R145. -/
def execB2Clr1 (_a : Nat) (s : State) : Result :=
  onInstance s fun _ => .next (s.twiddle clearBit1)

/-- R146. -/
def execB2Set1 (_a : Nat) (s : State) : Result :=
  onInstance s fun _ => .next (s.twiddle setBit1)

/-- R148: escape; pendingBitBank and bitToggle keep their values. -/
def execB2Esc (_a : Nat) (s : State) : Result :=
  onInstance s fun _ => .next (s.goto .bitwise3)

/-- R149: an ignored access does not flip the toggle. -/
def execB2Wait (_a : Nat) (s : State) : Result :=
  onInstance s fun _ => .next s

/-- R150: the pending bank is committed, not the index of the bank address. -/
def execB3Bank (_a : Nat) (s : State) : Result :=
  onInstance s fun _ => .next (s.commit s.pendingBitBank)

/-- R151. -/
def execB3Wait (_a : Nat) (s : State) : Result :=
  onInstance s fun _ => .next s

end Sys2Proof.Machine
end

