-- ==== Sys2Proof/Machine/Simple.lean ====
section
/-! DEFINITION. The global rule, Disabled, and the Enabled arms but EN.ALT2
(42_fsm_global_simple.md). The decoder has selected the arm; a meaning is the arm's writes. -/

namespace Sys2Proof.Machine

/-- R111. From any state; no other register is written. -/
def execArm (s : State) : Result :=
  onInstance s fun _ => .next (s.goto .enabled)

/-- R112. -/
def execDisNop (_a : Nat) (s : State) : Result :=
  onInstance s fun _ => .next s

/-- R115. -/
def execEnBit1 (_a : Nat) (s : State) : Result :=
  onInstance s fun _ => .next (s.goto .bitwise1)

/-- R116. pendingAddBank is not seeded here. -/
def execEnAdd1 (_a : Nat) (s : State) : Result :=
  onInstance s fun _ => .next (s.goto .additive1)

/-- R117. -/
def execEnAlt1 (_a : Nat) (s : State) : Result :=
  onInstance s fun _ => .next (s.goto .alternate1)

/-- R119: the index becomes the bank. -/
def execEnBank (_a : Nat) (i : Bank) (s : State) : Result :=
  onInstance s fun _ => .next (s.commit i)

/-- R120. -/
def execEnNop (_a : Nat) (s : State) : Result :=
  onInstance s fun _ => .next s

end Sys2Proof.Machine
end

