-- ==== Sys2Proof/Machine/System.lean ====
section
/-! DEFINITION. The system events (41_profile_repository.md, 47_system_ops.md), and save and restore. -/

namespace Sys2Proof.Machine

/-- CFG (41_profile_repository.md R101): look the profile up and create the instance, or raise
ConfigurationError. A live instance is not configured again (log entry 11). -/
def execCfg (pn : PartNumber) (s : State) : Result :=
  match s.profile with
  | some _ => .refused .reconfiguration
  | none =>
    match lookupProfile s.catalog pn with
    | some P => .next ((s.create P).answer none)
    | none => raiseConfigurationError pn

/-- HINT (47_system_ops.md R193): exactly once, before the first ACC. A second one, whatever its value,
and a late one have no meaning, and a model refuses them (92_eei_decisions.md D9,
93_implementation_defined.md U4; log entry 10). -/
def execHint (f : HostFamily) (s : State) : Result :=
  onInstance s fun _ =>
    if s.hostArchitectureHint ≠ .unknown then .refused .hintAlreadySet
    else if s.accessed then .refused .hintAfterAccess
    else .next ((s.setHint f.hint).answer none)

/-- RST (47_system_ops.md R190): Disabled and the starting bank; the hint and the profile stay. -/
def execRst (s : State) : Result :=
  onInstance s fun P => .next ((s.initialise P).answer none)

/-- PEEK (47_system_ops.md R191): the committed bank, never a pending one. -/
def execPeek (s : State) : Result :=
  onInstance s fun _ => .next (s.answer (some s.currentBank))

/-- DIAG (47_system_ops.md R194): an observation with no feedback into the decoder. -/
def execDiag (s : State) : Result :=
  onInstance s fun _ => .next s.forward

/-- The seven fields of the DecoderState (10_state.md R20), what a save record must hold
(47_system_ops.md R195). The record's format is the model's own (log entry 24). -/
structure SaveRecord where
  protocolState : ProtocolState
  currentBank : Bank
  pendingAltBank : Bank
  pendingBitBank : Bank
  bitToggle : Bank
  pendingAddBank : Bank
  hostArchitectureHint : Hint
deriving DecidableEq, Repr

/-- What the external facility saves (47_system_ops.md R195). -/
def State.save (s : State) : SaveRecord :=
  { protocolState := s.protocolState
    currentBank := s.currentBank
    pendingAltBank := s.pendingAltBank
    pendingBitBank := s.pendingBitBank
    bitToggle := s.bitToggle
    pendingAddBank := s.pendingAddBank
    hostArchitectureHint := s.hostArchitectureHint }

/-- What the external facility restores: all seven fields exactly (47_system_ops.md R195). -/
def State.restore (s : State) (r : SaveRecord) : State :=
  { s with
    protocolState := r.protocolState
    currentBank := r.currentBank
    pendingAltBank := r.pendingAltBank
    pendingBitBank := r.pendingBitBank
    bitToggle := r.bitToggle
    pendingAddBank := r.pendingAddBank
    hostArchitectureHint := r.hostArchitectureHint }

end Sys2Proof.Machine
end

