-- ==== Sys2Proof/Machine/Validator.lean ====
section
/-! DEFINITION. The CPU context validator (46_cpu_context.md): its three outcome rows, its two host
opcode rows, and EN.ALT2, which runs it (42_fsm_global_simple.md R118). -/

namespace Sys2Proof.Machine

/-- `ResolveAlternate2(P, hint, V)` as one function (R170); `none` where no result is defined (R179).
EN.ALT2 below reaches the same result row by row. -/
def resolveAlternate2 (P : Profile) (h : Hint) (v : View) : Option Resolution :=
  match h with
  | .introspect =>
    if P.alt1.accepts (wordAddress v.ip) then
      if isFormA (v.readWord v.ip) || isFormB (v.readWord v.ip) then
        if P.alt3.accepts (wordAddress (v.readReg (registerSelect (v.readWord v.ip)))) then
          some (.alternate3 (wordAddress (v.readReg (registerSelect (v.readWord v.ip)))))
        else some .enabled
      else some .enabled
    else some .enabled
  | .plain => some .alternate2
  | .unknown => none

/-- K.ALT3 (R176): the bank is taken from the word address that matched. -/
def execKAlt3 (w : Nat) (s : State) : Result :=
  onInstance s fun P => .next ((s.setAlt (bankField P.altShift w)).goto .alternate3)

/-- K.ALT2 (R178): the view is not consulted. -/
def execKAlt2 (s : State) : Result :=
  onInstance s fun _ => .next (s.goto .alternate2)

/-- K.FAIL (R177): the result is Enabled, and nothing else changes. -/
def execKFail (s : State) : Result :=
  onInstance s fun _ => .next (s.goto .enabled)

/-- The register check (R175 to R177): the selected register, as a word address, against `alt3`. -/
def registerCheck (n : RegNum) (s : State) : Result :=
  onInstance s fun P =>
    if P.alt3.accepts (wordAddress (s.view.readReg n)) then
      execKAlt3 (wordAddress (s.view.readReg n)) s
    else execKFail s

/-- CTX.A (R173): accepted, so the register check goes on with `n`; `u` is not used. -/
def execCtxA (n _u : RegNum) (s : State) : Result := registerCheck n s

/-- CTX.B (R173): treated like CTX.A afterwards. -/
def execCtxB (n _u : RegNum) (s : State) : Result := registerCheck n s

/-- The opcode check (R172, R173): the word at the instruction pointer, passed unchanged. -/
def opcodeCheck (s : State) : Result :=
  let op := s.view.readWord s.view.ip
  if isFormA op then execCtxA (registerSelect op) (unusedField op) s
  else if isFormB op then execCtxB (registerSelect op) (unusedField op) s
  else execKFail s

/-- EN.ALT2 (42_fsm_global_simple.md R118): the validator's result becomes the new state. Under
Introspect the pointer check comes first (R171), and a later reading is made only when the checks
before it hold (R177). Under Unknown the spec asks for a refusal (R179). -/
def execEnAlt2 (_a : Nat) (s : State) : Result :=
  onInstance s fun P =>
    match s.hostArchitectureHint with
    | .introspect => if P.alt1.accepts (wordAddress s.view.ip) then opcodeCheck s else execKFail s
    | .plain => execKAlt2 s
    | .unknown => .refused .hintUnknown

end Sys2Proof.Machine
end

