-- ==== Sys2Proof/Machine/Dispatch.lean ====
section
/-! DEFINITION. The dispatch: one arm per row of spec/opcode_table.json, in the table's order. -/

namespace Sys2Proof.Machine

open Sys2Proof

def exec (i : Instr) (s : State) : Host.Outcome State Fault Refusal :=
  match i with
  | .arm => Sys2Proof.Machine.execArm s
  | .disNop a => Sys2Proof.Machine.execDisNop a s
  | .enBit1 a => Sys2Proof.Machine.execEnBit1 a s
  | .enAdd1 a => Sys2Proof.Machine.execEnAdd1 a s
  | .enAlt1 a => Sys2Proof.Machine.execEnAlt1 a s
  | .enAlt2 a => Sys2Proof.Machine.execEnAlt2 a s
  | .enBank a b => Sys2Proof.Machine.execEnBank a b s
  | .enNop a => Sys2Proof.Machine.execEnNop a s
  | .a1Alt2 a => Sys2Proof.Machine.execA1Alt2 a s
  | .a1Miss a => Sys2Proof.Machine.execA1Miss a s
  | .a2Alt3 a => Sys2Proof.Machine.execA2Alt3 a s
  | .a2Miss a => Sys2Proof.Machine.execA2Miss a s
  | .a3Alt4 a => Sys2Proof.Machine.execA3Alt4 a s
  | .a3Wait a => Sys2Proof.Machine.execA3Wait a s
  | .b1Bank a => Sys2Proof.Machine.execB1Bank a s
  | .b1Wait a => Sys2Proof.Machine.execB1Wait a s
  | .b2Clr0 a => Sys2Proof.Machine.execB2Clr0 a s
  | .b2Set0 a => Sys2Proof.Machine.execB2Set0 a s
  | .b2Clr1 a => Sys2Proof.Machine.execB2Clr1 a s
  | .b2Set1 a => Sys2Proof.Machine.execB2Set1 a s
  | .b2Esc a => Sys2Proof.Machine.execB2Esc a s
  | .b2Wait a => Sys2Proof.Machine.execB2Wait a s
  | .b3Bank a => Sys2Proof.Machine.execB3Bank a s
  | .b3Wait a => Sys2Proof.Machine.execB3Wait a s
  | .ad1Add2 a => Sys2Proof.Machine.execAd1Add2 a s
  | .ad1Miss a => Sys2Proof.Machine.execAd1Miss a s
  | .ad2Plus1 a => Sys2Proof.Machine.execAd2Plus1 a s
  | .ad2Plus2 a => Sys2Proof.Machine.execAd2Plus2 a s
  | .ad2Esc a => Sys2Proof.Machine.execAd2Esc a s
  | .ad2Wait a => Sys2Proof.Machine.execAd2Wait a s
  | .ad3Bank a => Sys2Proof.Machine.execAd3Bank a s
  | .ad3Wait a => Sys2Proof.Machine.execAd3Wait a s
  | .ctxA n u => Sys2Proof.Machine.execCtxA n u s
  | .ctxB n u => Sys2Proof.Machine.execCtxB n u s
  | .kAlt3 w => Sys2Proof.Machine.execKAlt3 w s
  | .kAlt2 => Sys2Proof.Machine.execKAlt2 s
  | .kFail => Sys2Proof.Machine.execKFail s
  | .cfg pn => Sys2Proof.Machine.execCfg pn s
  | .hint f => Sys2Proof.Machine.execHint f s
  | .rst => Sys2Proof.Machine.execRst s
  | .peek => Sys2Proof.Machine.execPeek s
  | .diag => Sys2Proof.Machine.execDiag s

end Sys2Proof.Machine
end

