-- ==== Sys2Proof/Machine/Handle.lean ====
section
/-! DEFINITION. How one event is handled: its code is decoded, its rows run in order, and an ACC
gives back the bank. Step.lean only calls this. -/

namespace Sys2Proof.Machine

/-- The code an event is presented as (30_encoding.md R60). The view of an ACC is no part of it. -/
def Event.code (e : Event) : Code :=
  match e with
  | .cfg pn => .cfg pn
  | .hint f => .hint f
  | .rst => .rst
  | .peek => .peek
  | .diag => .diag
  | .acc a _ => .access a

/-- The rows of one event, each seeing the writes of the ones before it (45_fsm_additive.md R158). -/
def runRows (is : List Instr) (s : State) : Result :=
  match is with
  | [] => .next s
  | i :: rest =>
    match exec i s with
    | .next t => runRows rest t
    | .fault e => .fault e
    | .refused e => .refused e

/-- `ACC a, V` (42_fsm_global_simple.md R110): one transition, then the bank as it stands after it. -/
def handleAccess (a : Nat) (v : View) (s : State) : Result :=
  onInstance s fun P =>
    mapNext (fun t => t.respond a) (runRows (decodeAccess (s.mode P) a) (s.present v))

/-- One event, as one indivisible step (20_memory.md R47). -/
def handleEvent (e : Event) (s : State) : Result :=
  match e with
  | .cfg pn => exec (.cfg pn) s
  | .hint f => exec (.hint f) s
  | .rst => exec .rst s
  | .peek => exec .peek s
  | .diag => exec .diag s
  | .acc a v => handleAccess a v s

/-- Take the oldest presented event and handle it (20_memory.md R48). Without an event the block does
not step (00_scope.md R6, 60_exceptions.md R213; log entry 1). -/
def stepEvent (s : State) : Result :=
  match s.events with
  | [] => .refused .noEvent
  | e :: rest => handleEvent e (s.dequeue rest)

end Sys2Proof.Machine
end

