-- ==== Sys2Proof/Machine/Step.lean ====
section
/-! DEFINITION. The step function, and how one instruction is placed where the next step reads it. -/

namespace Sys2Proof.Machine

/-- One step: the oldest presented event (20_memory.md R48), handled whole. -/
def step (s : State) : Host.Outcome State Fault Refusal := stepEvent s

/-- A profile under which the ACC of address 1 is EN.ALT2 and the pointer 0 passes the `alt1` check:
`alt1` accepts even word addresses, `alt2` and `alt3` every one. It stands for the load of a program
from outside the machine, and is no physical part (log entry 1). -/
def fetchProfile : Profile :=
  { startingBank := 0
    bankAddress0 := 0
    bankAddress1 := 0
    bankAddress2 := 0
    bankAddress3 := 0
    alt1 := .pattern 1 0
    alt2 := .pattern 0 0
    alt3 := .pattern 0 0
    alt4 := .absent
    altShift := 0
    supportsBitwise := false
    bit1 := .absent
    bit2ClearBit0 := .absent
    bit2SetBit0 := .absent
    bit2ClearBit1 := .absent
    bit2SetBit1 := .absent
    bit3 := .absent
    supportsAdditive := false
    add1 := .absent
    add2 := .absent
    addPlus1 := .absent
    addPlus2 := .absent
    add3 := .absent }

/-- The event that makes the block read the word `w`: the access of address 0 when the word is the
arming address, else an access at which the validator reads `w` as the host opcode at the pointer. -/
def fetchEvent (w : Nat) : Event :=
  if w = 0 then .acc 0 View.zero
  else .acc 1 { View.zero with memory := Memory.zero.write 0 (BitVec.ofNat 16 w) }

/-- `s` with the instruction placed so that the very next step runs it (log entry 1): an instance is
configured with `fetchProfile`, armed, its host named Introspect, and the event that carries the word
is the oldest one presented. -/
def State.withFetchWord (s : State) (nbits w : Nat) : State :=
  { s with
    profile := some fetchProfile
    protocolState := .enabled
    hostArchitectureHint := .introspect
    events := fetchEvent (w % 2 ^ nbits) :: s.events }

end Sys2Proof.Machine
end

