-- ==== Sys2Proof/Machine/Script.lean ====
section
/-! DEFINITION. Sequences of events: the pseudo-instructions of 30_encoding.md R76, and what a list of
accesses does to the registers of one mode, as a fold. -/

namespace Sys2Proof.Machine

/-- ACC events whose view no arm consults (30_encoding.md R60). -/
def accesses (as : List Nat) : List Event := as.map fun a => .acc a View.zero

/-- The four bank addresses by index (10_state.md R28). -/
def bankAddressOf (P : Profile) (i : Bank) : Nat :=
  match i.toNat with
  | 0 => P.bankAddress0
  | 1 => P.bankAddress1
  | 2 => P.bankAddress2
  | _ => P.bankAddress3

/-- `SIMPLE i`. -/
def scriptSimple (P : Profile) (i : Bank) : List Event := accesses [0, bankAddressOf P i]

/-- `ALT a1, a2, a3, a4`. -/
def scriptAlt (a1 a2 a3 a4 : Nat) : List Event := accesses [0, a1, a2, a3, a4]

/-- `ALTK a2, a4`: the validator form, with the view of the `a2` access. -/
def scriptAltK (a2 : Nat) (v : View) (a4 : Nat) : List Event :=
  [.acc 0 View.zero, .acc a2 v, .acc a4 View.zero]

/-- `BITW b, ba, t1..tk, e, c`. -/
def scriptBitw (b ba : Nat) (ts : List Nat) (e c : Nat) : List Event :=
  accesses ([0, b, ba] ++ ts ++ [e, c])

/-- `ADDV s1, s2, u1..uk, c`. -/
def scriptAddv (s1 s2 : Nat) (us : List Nat) (c : Nat) : List Event :=
  accesses ([0, s1, s2] ++ us ++ [c])

/-- The events of a list in order, each on the state the one before it left (20_memory.md R48). -/
def handleEvents (es : List Event) (s : State) : Result :=
  match es with
  | [] => .next s
  | e :: rest =>
    match handleEvent e s with
    | .next t => handleEvents rest t
    | .fault r => .fault r
    | .refused r => .refused r

/-- Whether an address selects the stay arm of a sequencer state (00_scope.md R13, 30_encoding.md
R73). Alternate1, Alternate2 and Additive1 have none: they fall back. -/
def staysPut (P : Profile) (p : ProtocolState) (t : Bank) (a : Nat) : Bool :=
  match p with
  | .disabled => true
  | .enabled => P.passesToBank a && !P.isBankAddress a
  | .alternate1 => false
  | .alternate2 => false
  | .alternate3 => !P.alt4.accepts a
  | .bitwise1 => !P.isBankAddress a
  | .bitwise2 => P.noTwiddle t a && !P.bit3.accepts a
  | .bitwise3 => !P.isBankAddress a
  | .additive1 => false
  | .additive2 => !P.addPlus1.accepts a && !P.addPlus2.accepts a && !P.add3.accepts a
  | .additive3 => !P.isBankAddress a

/-- What one access in Bitwise2 does to the pending bank and the toggle (44_fsm_bitwise.md R147). -/
def twiddleOne (P : Profile) (bt : Bank × Bank) (a : Nat) : Bank × Bank :=
  if P.bit2ClearBit0.accepts (toggled bt.2 a) then (clearBit0 bt.1, toggleFlip bt.2)
  else if P.bit2SetBit0.accepts (toggled bt.2 a) then (setBit0 bt.1, toggleFlip bt.2)
  else if P.bit2ClearBit1.accepts (toggled bt.2 a) then (clearBit1 bt.1, toggleFlip bt.2)
  else if P.bit2SetBit1.accepts (toggled bt.2 a) then (setBit1 bt.1, toggleFlip bt.2)
  else bt

/-- What one access in Additive2 does to the pending bank, whether or not it escapes
(45_fsm_additive.md R158 to R162). -/
def addedBank (P : Profile) (b : Bank) (a : Nat) : Bank :=
  let b1 := if P.addPlus1.accepts a then plusOne b else b
  if P.addPlus2.accepts a then plusTwo b1 else b1

/-- The sum of the increments a list of accesses in Additive2 makes (45_fsm_additive.md R165). -/
def increments (P : Profile) (us : List Nat) : Nat :=
  us.countP (fun u => P.addPlus1.accepts u) + 2 * us.countP (fun u => P.addPlus2.accepts u)

end Sys2Proof.Machine
end

