-- ==== Sys2Proof/Safety.lean ====
section
/-! DEFINITION. What a safe run is: the set-up order of 70_reset_and_hazards.md R226, and the facts
that every reached state keeps. -/

namespace Sys2Proof.Machine

/-- Set-up is done (70_reset_and_hazards.md R226): an instance exists and the hint is settled. -/
def Ready (s : State) : Prop :=
  s.profile.isSome ∧ s.hostArchitectureHint ≠ .unknown

/-- The events of normal running, after set-up: everything but CFG and HINT. -/
def Event.isRuntime (e : Event) : Bool :=
  match e with
  | .cfg _ => false
  | .hint _ => false
  | .rst => true
  | .peek => true
  | .diag => true
  | .acc _ _ => true

/-- A run of `k` steps that meets no fault and no refusal. -/
def SafeRun (k : Nat) (s : State) : Prop :=
  ∃ t : State, Sys2Proof.core.run k s = .next t

/-- The view an event carries is in canonical form. -/
def Event.viewWf (e : Event) : Bool :=
  match e with
  | .acc _ v => v.memory.wf
  | _ => true

/-- The toggle holds 0 or 3 (10_state.md R25, R34). -/
def ToggleLegal (s : State) : Prop :=
  s.bitToggle = 0#2 ∨ s.bitToggle = 3#2

/-- The host bus of the view, and of every view still to come, is in canonical form. -/
def ViewsCanonical (s : State) : Prop :=
  s.view.memory.wf = true ∧ ∀ e ∈ s.events, e.viewWf = true

/-- The sequencer is in a mode the profile has (10_state.md R36). -/
def ModeReachable (P : Profile) (p : ProtocolState) : Prop :=
  match p with
  | .disabled => True
  | .enabled => True
  | .alternate1 => P.alt1 ≠ .absent
  | .alternate2 => P.alt2 ≠ .absent
  | .alternate3 => P.alt2 ≠ .absent ∧ P.alt3 ≠ .absent
  | .bitwise1 => P.supportsBitwise = true ∧ P.bit1 ≠ .absent
  | .bitwise2 => P.supportsBitwise = true ∧ P.bit1 ≠ .absent
  | .bitwise3 => P.supportsBitwise = true ∧ P.bit1 ≠ .absent ∧ P.bit3 ≠ .absent
  | .additive1 => P.supportsAdditive = true ∧ P.add1 ≠ .absent
  | .additive2 => P.supportsAdditive = true ∧ P.add1 ≠ .absent ∧ P.add2 ≠ .absent
  | .additive3 =>
    P.supportsAdditive = true ∧ P.add1 ≠ .absent ∧ P.add2 ≠ .absent ∧ P.add3 ≠ .absent

/-- No instance, or one that no access was presented to, is Disabled (60_exceptions.md R201,
70_reset_and_hazards.md R221). -/
def UntouchedDisabled (s : State) : Prop :=
  s.profile = none ∨ s.accessed = false → s.protocolState = .disabled

/-- The invariant of the machine. -/
structure Inv (s : State) : Prop where
  toggle : ToggleLegal s
  views : ViewsCanonical s
  untouched : UntouchedDisabled s
  mode : ∀ P, s.profile = some P → ModeReachable P s.protocolState

/-- Two states no observer of the block can tell apart (10_state.md R30, R35): everything is equal
but the free counter and the scratch registers outside their in-progress states. -/
structure SameButStaleScratch (s t : State) : Prop where
  protocolState : s.protocolState = t.protocolState
  currentBank : s.currentBank = t.currentBank
  hint : s.hostArchitectureHint = t.hostArchitectureHint
  profile : s.profile = t.profile
  catalog : s.catalog = t.catalog
  events : s.events = t.events
  view : s.view = t.view
  result : s.result = t.result
  lastAccess : s.lastAccess = t.lastAccess
  sink : s.sink = t.sink
  accessed : s.accessed = t.accessed
  alternate : s.protocolState = .alternate3 → s.pendingAltBank = t.pendingAltBank
  bitwise : s.protocolState = .bitwise2 ∨ s.protocolState = .bitwise3 →
    s.pendingBitBank = t.pendingBitBank
  toggle : s.protocolState = .bitwise2 → s.bitToggle = t.bitToggle
  additive : s.protocolState = .additive2 ∨ s.protocolState = .additive3 →
    s.pendingAddBank = t.pendingAddBank

end Sys2Proof.Machine
end

