-- ==== Sys2Proof/Certificates/Slice0/Obligations.lean ====
section
/-! DEFINITION. The statements for the provers. Each docstring names the rules of spec/ it formalises;
where it rests on a choice of the model or of the spec it says so. -/

open Sys2Proof Sys2Proof.Machine

/-! ### The comparator and the operands -/

/-- 40_trigger_pattern.md R90: an absent pattern matches nothing; a present one compares the masked
address with the masked value. -/
def Obligations.MatchComparesMaskedValues : Prop :=
  ∀ a : Nat, TriggerPattern.absent.accepts a = false ∧
    ∀ mask value : Nat,
      (TriggerPattern.pattern mask value).accepts a = true ↔ a &&& mask = value &&& mask

/-- 40_trigger_pattern.md, corner cases (a) to (c) of the comparator, which the spec marks derived:
a zero mask matches every address, value bits outside the mask are ignored, address bits outside the
mask are ignored. -/
def Obligations.MatchIgnoresBitsOutsideMask : Prop :=
  ∀ mask value a : Nat,
    (TriggerPattern.pattern 0 value).accepts a = true ∧
    (TriggerPattern.pattern mask (value &&& mask)).accepts a =
      (TriggerPattern.pattern mask value).accepts a ∧
    (TriggerPattern.pattern mask value).accepts (a &&& mask) =
      (TriggerPattern.pattern mask value).accepts a

/-- 42_fsm_global_simple.md, BankIndex: the least index whose bank address equals the address. Which
index wins among equals is the spec's own decision D5 (log entry 15). -/
def Obligations.BankIndexIsLeastEqualEntry : Prop :=
  ∀ (P : Profile) (a : Nat),
    (∀ i : Bank, P.bankIndex a = some i ↔
      bankAddressOf P i = a ∧ ∀ j : Bank, j < i → bankAddressOf P j ≠ a) ∧
    (P.bankIndex a = none ↔ ∀ i : Bank, bankAddressOf P i ≠ a)

/-- 30_encoding.md R64: the bank field is two bits of the word address, and 0 where the shift is at or
beyond the width of the word address. -/
def Obligations.BankFieldIsTwoShiftedBits : Prop :=
  ∀ (shift w : Nat),
    (bankField shift w).toNat = (w >>> shift) % 4 ∧
    ∀ width : Nat, w < 2 ^ width → width ≤ shift → bankField shift w = 0#2

/-- 30_encoding.md R65: with a toggle of 0 the compared address is the address; with 3 its bits 1 and 0
are inverted and all higher bits untouched. -/
def Obligations.ToggleInvertsLowTwoBits : Prop :=
  ∀ a : Nat, toggled 0#2 a = a ∧
    toggled 3#2 a / 4 = a / 4 ∧ toggled 3#2 a % 4 = 3 - a % 4

/-- 30_encoding.md, the pointer's shift (the spec's decision D12, log entry 18): shifting the host
pointer right and comparing with the pattern is the same as comparing the byte address with the
pattern shifted left. -/
def Obligations.PointerShiftEitherWayAgrees : Prop :=
  ∀ mask value ip : Nat,
    (TriggerPattern.pattern mask value).accepts (wordAddress ip) =
      (TriggerPattern.pattern (mask <<< 1) (value <<< 1)).accepts ip

/-- 30_encoding.md, the host opcode layout: a 16-bit word passes the test of pattern A (B) exactly when
it is 0011nnn010010uuu (1011nnn101001uuu) for some n and u. -/
def Obligations.HostFormsAreTheTwoLayouts : Prop :=
  ∀ op : HostWord,
    ((op &&& 0xF1F8#16 = 0x3090#16) ↔ ∃ n u : RegNum, op = encodeFormA n u) ∧
    ((op &&& 0xF1F8#16 = 0xB148#16) ↔ ∃ n u : RegNum, op = encodeFormB n u) ∧
    (decodeHostOp op = none ↔
      op &&& 0xF1F8#16 ≠ 0x3090#16 ∧ op &&& 0xF1F8#16 ≠ 0xB148#16)

/-! ### Decoding -/

/-- Words written out from the spec's encodings decode to the instruction they stand for: 0011 111 010
010 111, 1011 011 101 001 010, 0011 001 010 011 000 (neither form). That the register-select field is
bits 11 to 9 is the spec's decision D11 (log entry 14, PRESUMED). That a word 0 is read as the arming
address, though as a host word it is neither form, is the model's choice (log entry 1). -/
def Obligations.WrittenWordsDecode : Prop :=
  decodeTableWord 16 0b0011111010010111 = some (.ctxA 7 7) ∧
  decodeTableWord 16 0b1011011101001010 = some (.ctxB 3 2) ∧
  decodeTableWord 16 0b0011001010011000 = none ∧
  decodeTableWord 16 0x0000 = some .arm

/-- Decode and encode agree on every row: an instruction is among the rows a code decodes to exactly
when the code is its encoding and the state and condition columns of its row hold (the transition map
of 30_encoding.md; the register-select bits are the spec's decision D11, log entry 14). -/
def Obligations.DecodesExactlyWhenEncodedAndSelected : Prop :=
  ∀ (m : Mode) (c : Code) (i : Instr),
    i ∈ (decode m c).toList ↔ encode i = c ∧ i.selected m = true

/-- The round trip: a well-formed instruction whose row's condition holds is decoded, alone, from its
own encoding; in Additive2 its companions stand beside it, each selected and with the same encoding. -/
def Obligations.EncodedInstructionDecodesBack : Prop :=
  ∀ (m : Mode) (i : Instr), i.wellFormed = true → i.selected m = true →
    ∃ is : List Instr, decode m (encode i) = .rows is ∧ i ∈ is ∧
      (m.protocolState ≠ .additive2 → is = [i]) ∧
      ∀ j ∈ is, j.wellFormed = true ∧ j.selected m = true ∧ encode j = encode i

/-- 30_encoding.md, the transition map: an address selects exactly one arm, but in Additive2, where it
selects one or more of its rows. -/
def Obligations.AddressSelectsExactlyOneArm : Prop :=
  ∀ (m : Mode) (a : Nat),
    (m.protocolState ≠ .additive2 → ∃! i : Instr, encode i = .access a ∧ i.selected m = true) ∧
    ∃ i : Instr, encode i = .access a ∧ i.selected m = true

/-! ### The step -/

/-- Step runs the decoded instruction. An ACC: the view is latched, the row its address decodes to is
executed, and the bank is given back (42_fsm_global_simple.md, The step as a whole). A system event:
step is exec of the instruction its code decodes to. -/
def Obligations.StepRunsTheDecodedInstruction : Prop :=
  ∀ (s : State) (P : Profile) (e : Event) (rest : List Event) (i : Instr),
    s.profile = some P → s.events = e :: rest → decode (s.mode P) e.code = .rows [i] →
    step s = match e with
      | .acc a v => mapNext (fun t => t.respond a) (exec i { s with events := rest, view := v })
      | _ => exec i { s with events := rest }

/-- Before CFG there is no instance: CFG is executed, and no other event can follow (60_exceptions.md,
section 1). Stopping by a refusal is the model's form of it (log entry 9). -/
def Obligations.WithoutInstanceOnlyCfgRuns : Prop :=
  ∀ (s : State) (e : Event) (rest : List Event),
    s.profile = none → s.events = e :: rest →
    step s = match e with
      | .cfg pn => exec (.cfg pn) { s with events := rest }
      | _ => .refused .noInstance

/-- Without a presented event there is no step (60_exceptions.md, section 8: no idle transition). The
refusal is the model's form of it (log entry 1). -/
def Obligations.WithoutEventNoStep : Prop :=
  ∀ s : State, s.events = [] → step s = .refused .noEvent

/-- The state after n events is the fold over the events, in order (20_memory.md, section 3). -/
def Obligations.RunIsFoldOverEvents : Prop :=
  ∀ (es rest : List Event) (s : State), s.events = es ++ rest →
    Sys2Proof.core.run es.length s =
      mapNext (fun t => { t with events := rest }) (handleEvents es { s with events := [] })

/-- 42_fsm_global_simple.md R121: what an ACC returns is currentBank after the arm's writes; and a
commit, which is what changes the bank, ends Disabled. -/
def Obligations.AccessReturnsBankAfterStep : Prop :=
  ∀ (s t : State) (a : Nat) (v : View) (rest : List Event),
    s.events = .acc a v :: rest → step s = .next t →
    t.result = some t.currentBank ∧
    t.lastAccess = some ⟨a, t.currentBank, t.protocolState⟩ ∧ t.events = rest ∧
    (t.currentBank ≠ s.currentBank → t.protocolState = .disabled ∧
      (s.protocolState = .enabled ∨ s.protocolState = .alternate3 ∨
        s.protocolState = .bitwise3 ∨ s.protocolState = .additive3))

/-! ### Arming, Disabled, Enabled -/

/-- 42_fsm_global_simple.md R111: from any state the address 0x0000 leads to Enabled and leaves
currentBank and the scratch registers unchanged. -/
def Obligations.ZeroAddressArmsFromAnyState : Prop :=
  ∀ (s : State) (P : Profile), s.profile = some P →
    exec .arm s = .next { s with protocolState := .enabled } ∧
    ∀ (v : View) (rest : List Event), s.events = .acc 0 v :: rest →
      step s = .next (State.respond
        { s with events := rest, view := v, protocolState := .enabled } 0)

/-- 42_fsm_global_simple.md, Disabled (a rule the spec marks derived; decision D7, log entry 17): every
other address changes nothing. -/
def Obligations.DisabledIgnoresNonzeroAddresses : Prop :=
  ∀ (s : State) (P : Profile) (a : Nat), s.profile = some P →
    exec (.disNop a) s = .next s ∧
    ∀ (v : View) (rest : List Event), a ≠ 0 → s.protocolState = .disabled →
      s.events = .acc a v :: rest →
      step s = .next (State.respond { s with events := rest, view := v } a)

/-- 42_fsm_global_simple.md R115 to R117, R119, R120: what each Enabled row does when executed, whatever
the state. -/
def Obligations.EnabledRowsResults : Prop :=
  ∀ (s : State) (P : Profile) (a : Nat) (i : Bank), s.profile = some P →
    exec (.enBit1 a) s = .next { s with protocolState := .bitwise1 } ∧
    exec (.enAdd1 a) s = .next { s with protocolState := .additive1 } ∧
    exec (.enAlt1 a) s = .next { s with protocolState := .alternate1 } ∧
    exec (.enBank a i) s = .next { s with currentBank := i, protocolState := .disabled } ∧
    exec (.enNop a) s = .next s

/-- 42_fsm_global_simple.md R115, R116, R117, R119, R120: in Enabled the first of bit1 (with the
capability), add1 (with the capability), alt1, alt2, a bank address decides; anything else is a no-op.
The alt2 case is stated by the validator's statements. -/
def Obligations.EnabledFirstMatchWins : Prop :=
  ∀ (s : State) (P : Profile) (a : Nat) (v : View) (rest : List Event),
    s.profile = some P → s.protocolState = .enabled → a ≠ 0 → s.events = .acc a v :: rest →
    let t : State := { s with events := rest, view := v }
    (P.supportsBitwise = true ∧ P.bit1.accepts a = true →
      step s = .next (State.respond { t with protocolState := .bitwise1 } a)) ∧
    (¬(P.supportsBitwise = true ∧ P.bit1.accepts a = true) →
      (P.supportsAdditive = true ∧ P.add1.accepts a = true →
        step s = .next (State.respond { t with protocolState := .additive1 } a)) ∧
      (¬(P.supportsAdditive = true ∧ P.add1.accepts a = true) →
        (P.alt1.accepts a = true →
          step s = .next (State.respond { t with protocolState := .alternate1 } a)) ∧
        (P.alt1.accepts a = false → P.alt2.accepts a = false →
          (∀ i : Bank, P.bankIndex a = some i →
            step s = .next (State.respond
              { t with currentBank := i, protocolState := .disabled } a)) ∧
          (P.bankIndex a = none → step s = .next (State.respond t a)))))

/-! ### Alternate mode -/

/-- 43_fsm_alternate.md R131, R132: in Alternate1 an alt2 address advances to Alternate2, anything else
falls back to Enabled, and nothing else changes. That the access is consumed by the fall-back is the
spec's decision D6 (log entry 16). -/
def Obligations.AlternateOneAdvancesOrFallsBack : Prop :=
  ∀ (s : State) (P : Profile) (a : Nat), s.profile = some P →
    exec (.a1Alt2 a) s = .next { s with protocolState := .alternate2 } ∧
    exec (.a1Miss a) s = .next { s with protocolState := .enabled } ∧
    ∀ (v : View) (rest : List Event), a ≠ 0 → s.protocolState = .alternate1 →
      s.events = .acc a v :: rest →
      step s = .next (State.respond
        { s with
          events := rest, view := v
          protocolState := if P.alt2.accepts a then .alternate2 else .enabled } a)

/-- 43_fsm_alternate.md R133, R134: in Alternate2 an alt3 address captures its bank field and advances
to Alternate3, anything else falls back to Enabled; currentBank is not changed. That the access is
consumed by the fall-back is the spec's decision D6 (log entry 16). -/
def Obligations.AlternateTwoCapturesOrFallsBack : Prop :=
  ∀ (s : State) (P : Profile) (a : Nat), s.profile = some P →
    exec (.a2Alt3 a) s = .next
      { s with
        pendingAltBank := BitVec.ofNat 2 ((a >>> P.altShift) &&& 3)
        protocolState := .alternate3 } ∧
    exec (.a2Miss a) s = .next { s with protocolState := .enabled } ∧
    ∀ (v : View) (rest : List Event), a ≠ 0 → s.protocolState = .alternate2 →
      s.events = .acc a v :: rest →
      let t : State := { s with events := rest, view := v }
      (P.alt3.accepts a = true → step s = .next (State.respond
        { t with
          pendingAltBank := BitVec.ofNat 2 ((a >>> P.altShift) &&& 3)
          protocolState := .alternate3 } a)) ∧
      (P.alt3.accepts a = false →
        step s = .next (State.respond { t with protocolState := .enabled } a))

/-- 43_fsm_alternate.md R135, R136: in Alternate3 an alt4 address commits the captured bank, anything
else waits. -/
def Obligations.AlternateThreeCommitsOrWaits : Prop :=
  ∀ (s : State) (P : Profile) (a : Nat), s.profile = some P →
    exec (.a3Alt4 a) s =
      .next { s with currentBank := s.pendingAltBank, protocolState := .disabled } ∧
    exec (.a3Wait a) s = .next s ∧
    ∀ (v : View) (rest : List Event), a ≠ 0 → s.protocolState = .alternate3 →
      s.events = .acc a v :: rest →
      let t : State := { s with events := rest, view := v }
      (P.alt4.accepts a = true → step s = .next (State.respond
        { t with currentBank := s.pendingAltBank, protocolState := .disabled } a)) ∧
      (P.alt4.accepts a = false → step s = .next (State.respond t a))

/-! ### Bitwise mode -/

/-- 44_fsm_bitwise.md R141, R142: in Bitwise1 any bank address seeds the pending bank from currentBank
and clears the toggle, anything else waits. -/
def Obligations.BitwiseOneSeedsOrWaits : Prop :=
  ∀ (s : State) (P : Profile) (a : Nat), s.profile = some P →
    exec (.b1Bank a) s = .next
      { s with
        pendingBitBank := s.currentBank, bitToggle := 0#2, protocolState := .bitwise2 } ∧
    exec (.b1Wait a) s = .next s ∧
    ∀ (v : View) (rest : List Event), a ≠ 0 → s.protocolState = .bitwise1 →
      s.events = .acc a v :: rest →
      let t : State := { s with events := rest, view := v }
      ((∃ i : Bank, bankAddressOf P i = a) → step s = .next (State.respond
        { t with
          pendingBitBank := s.currentBank, bitToggle := 0#2, protocolState := .bitwise2 } a)) ∧
      ((∀ i : Bank, bankAddressOf P i ≠ a) → step s = .next (State.respond t a))

/-- 44_fsm_bitwise.md R143 to R146, R148, R149: what each Bitwise2 row does when executed. A twiddle
forces one bit of the pending bank, keeps the other, and inverts the toggle. -/
def Obligations.BitwiseTwoRowsResults : Prop :=
  ∀ (s : State) (P : Profile) (a : Nat), s.profile = some P →
    exec (.b2Clr0 a) s = .next
      { s with pendingBitBank := s.pendingBitBank &&& 2#2, bitToggle := s.bitToggle ^^^ 3#2 } ∧
    exec (.b2Set0 a) s = .next
      { s with pendingBitBank := s.pendingBitBank ||| 1#2, bitToggle := s.bitToggle ^^^ 3#2 } ∧
    exec (.b2Clr1 a) s = .next
      { s with pendingBitBank := s.pendingBitBank &&& 1#2, bitToggle := s.bitToggle ^^^ 3#2 } ∧
    exec (.b2Set1 a) s = .next
      { s with pendingBitBank := s.pendingBitBank ||| 2#2, bitToggle := s.bitToggle ^^^ 3#2 } ∧
    exec (.b2Esc a) s = .next { s with protocolState := .bitwise3 } ∧
    exec (.b2Wait a) s = .next s

/-- 44_fsm_bitwise.md R143 to R149: the chain in Bitwise2. The first of clear-bit0, set-bit0,
clear-bit1, set-bit1 that accepts the address XOR the toggle is the one twiddle of the access; if none
does, bit3 on the raw address escapes; any other access is ignored and does not flip the toggle. -/
def Obligations.BitwiseTwoIsOneElseIfChain : Prop :=
  ∀ (s : State) (P : Profile) (a : Nat) (v : View) (rest : List Event),
    s.profile = some P → s.protocolState = .bitwise2 → a ≠ 0 → s.events = .acc a v :: rest →
    let t : State := { s with events := rest, view := v }
    let x : Nat := a ^^^ s.bitToggle.toNat
    step s = .next (State.respond
      (if P.bit2ClearBit0.accepts x then
        { t with pendingBitBank := s.pendingBitBank &&& 2#2, bitToggle := s.bitToggle ^^^ 3#2 }
      else if P.bit2SetBit0.accepts x then
        { t with pendingBitBank := s.pendingBitBank ||| 1#2, bitToggle := s.bitToggle ^^^ 3#2 }
      else if P.bit2ClearBit1.accepts x then
        { t with pendingBitBank := s.pendingBitBank &&& 1#2, bitToggle := s.bitToggle ^^^ 3#2 }
      else if P.bit2SetBit1.accepts x then
        { t with pendingBitBank := s.pendingBitBank ||| 2#2, bitToggle := s.bitToggle ^^^ 3#2 }
      else if P.bit3.accepts a then { t with protocolState := .bitwise3 }
      else t) a)

/-- 44_fsm_bitwise.md R150, R151: in Bitwise3 any bank address commits the pending bank, not its own
index; anything else waits. -/
def Obligations.BitwiseThreeCommitsOrWaits : Prop :=
  ∀ (s : State) (P : Profile) (a : Nat), s.profile = some P →
    exec (.b3Bank a) s =
      .next { s with currentBank := s.pendingBitBank, protocolState := .disabled } ∧
    exec (.b3Wait a) s = .next s ∧
    ∀ (v : View) (rest : List Event), a ≠ 0 → s.protocolState = .bitwise3 →
      s.events = .acc a v :: rest →
      let t : State := { s with events := rest, view := v }
      ((∃ i : Bank, bankAddressOf P i = a) → step s = .next (State.respond
        { t with currentBank := s.pendingBitBank, protocolState := .disabled } a)) ∧
      ((∀ i : Bank, bankAddressOf P i ≠ a) → step s = .next (State.respond t a))

/-! ### Additive mode -/

/-- 45_fsm_additive.md R156, R157: in Additive1 an add2 address seeds the pending bank from currentBank,
anything else falls back to Enabled. That the access is consumed by the fall-back is the spec's
decision D6 (log entry 16). -/
def Obligations.AdditiveOneSeedsOrFallsBack : Prop :=
  ∀ (s : State) (P : Profile) (a : Nat), s.profile = some P →
    exec (.ad1Add2 a) s =
      .next { s with pendingAddBank := s.currentBank, protocolState := .additive2 } ∧
    exec (.ad1Miss a) s = .next { s with protocolState := .enabled } ∧
    ∀ (v : View) (rest : List Event), a ≠ 0 → s.protocolState = .additive1 →
      s.events = .acc a v :: rest →
      let t : State := { s with events := rest, view := v }
      (P.add2.accepts a = true → step s = .next (State.respond
        { t with pendingAddBank := s.currentBank, protocolState := .additive2 } a)) ∧
      (P.add2.accepts a = false →
        step s = .next (State.respond { t with protocolState := .enabled } a))

/-- 45_fsm_additive.md R159 to R162: what each part of Additive2 does when executed. -/
def Obligations.AdditiveTwoPartsResults : Prop :=
  ∀ (s : State) (P : Profile) (a : Nat), s.profile = some P →
    exec (.ad2Plus1 a) s =
      .next { s with pendingAddBank := BitVec.ofNat 2 ((s.pendingAddBank.toNat + 1) &&& 3) } ∧
    exec (.ad2Plus2 a) s =
      .next { s with pendingAddBank := BitVec.ofNat 2 ((s.pendingAddBank.toNat + 2) &&& 3) } ∧
    exec (.ad2Esc a) s = .next { s with protocolState := .additive3 } ∧
    exec (.ad2Wait a) s = .next s

/-- 45_fsm_additive.md R158 to R162: in Additive2 the three checks are independent; +1 and +2 add up in
one access, and the escape keeps the increments of its own access. -/
def Obligations.AdditiveTwoChecksAreIndependent : Prop :=
  ∀ (s : State) (P : Profile) (a : Nat) (v : View) (rest : List Event),
    s.profile = some P → s.protocolState = .additive2 → a ≠ 0 → s.events = .acc a v :: rest →
    step s = .next (State.respond
      { s with
        events := rest
        view := v
        pendingAddBank := BitVec.ofNat 2 ((s.pendingAddBank.toNat +
          (if P.addPlus1.accepts a then 1 else 0) + (if P.addPlus2.accepts a then 2 else 0)) &&& 3)
        protocolState := if P.add3.accepts a then .additive3 else .additive2 } a)

/-- 45_fsm_additive.md R163, R164: in Additive3 any bank address commits the pending bank, not its own
index; anything else waits. -/
def Obligations.AdditiveThreeCommitsOrWaits : Prop :=
  ∀ (s : State) (P : Profile) (a : Nat), s.profile = some P →
    exec (.ad3Bank a) s =
      .next { s with currentBank := s.pendingAddBank, protocolState := .disabled } ∧
    exec (.ad3Wait a) s = .next s ∧
    ∀ (v : View) (rest : List Event), a ≠ 0 → s.protocolState = .additive3 →
      s.events = .acc a v :: rest →
      let t : State := { s with events := rest, view := v }
      ((∃ i : Bank, bankAddressOf P i = a) → step s = .next (State.respond
        { t with currentBank := s.pendingAddBank, protocolState := .disabled } a)) ∧
      ((∀ i : Bank, bankAddressOf P i ≠ a) → step s = .next (State.respond t a))

/-! ### The CPU context validator -/

/-- 46_cpu_context.md R176 to R178 and section EN.ALT2: what the three outcome rows do when executed. -/
def Obligations.ValidatorOutcomesResults : Prop :=
  ∀ (s : State) (P : Profile) (w : Nat), s.profile = some P →
    exec (.kAlt3 w) s = .next
      { s with
        pendingAltBank := BitVec.ofNat 2 ((w >>> P.altShift) &&& 3)
        protocolState := .alternate3 } ∧
    exec .kAlt2 s = .next { s with protocolState := .alternate2 } ∧
    exec .kFail s = .next { s with protocolState := .enabled }

/-- 46_cpu_context.md, steps 4 to 6: both accepted host forms go on with the register check of the
register they name, and their low field is not used. The one-bit shift is the spec's decision D12 (log
entry 18). -/
def Obligations.AcceptedFormsRunRegisterCheck : Prop :=
  ∀ (s : State) (P : Profile) (n u : RegNum), s.profile = some P →
    let w : Nat := s.view.readReg n >>> 1
    let t : State := if P.alt3.accepts w then
      { s with
        pendingAltBank := BitVec.ofNat 2 ((w >>> P.altShift) &&& 3)
        protocolState := .alternate3 }
      else { s with protocolState := .enabled }
    exec (.ctxA n u) s = .next t ∧ exec (.ctxB n u) s = .next t

/-- 46_cpu_context.md R178: under the hint Plain an alt2 address seen in Enabled leads to Alternate2,
whatever the view says. -/
def Obligations.PlainHintTrustsTheBus : Prop :=
  ∀ (s : State) (P : Profile) (a : Nat), s.profile = some P → s.hostArchitectureHint = .plain →
    exec (.enAlt2 a) s = .next { s with protocolState := .alternate2 } ∧
    ∀ (v : View) (rest : List Event), a ≠ 0 → s.protocolState = .enabled →
      P.passesToAlt2 a = true → P.alt2.accepts a = true → s.events = .acc a v :: rest →
      step s = .next (State.respond
        { s with events := rest, view := v, protocolState := .alternate2 } a)

/-- 42_fsm_global_simple.md R118: once the hint is set, EN.ALT2 completes, and the result of
ResolveAlternate2 becomes the new state. In Enabled the alt2 check is the fourth one, and a bank address
is not tried after it. That the bank of Alternate3 is taken from the shifted register value, a word
address (46_cpu_context.md R176), is the spec's decision D12 (log entry 18); which register that is, its
decision D11 (log entry 14). -/
def Obligations.ValidatorResultBecomesState : Prop :=
  ∀ (s : State) (P : Profile) (a : Nat), s.profile = some P → s.hostArchitectureHint ≠ .unknown →
    let becomes : Resolution → State → State := fun r t =>
      match r with
      | .alternate3 w =>
        { t with
          pendingAltBank := BitVec.ofNat 2 ((w >>> P.altShift) &&& 3)
          protocolState := .alternate3 }
      | .alternate2 => { t with protocolState := .alternate2 }
      | .enabled => { t with protocolState := .enabled }
    (∃ r : Resolution, resolveAlternate2 P s.hostArchitectureHint s.view = some r ∧
      exec (.enAlt2 a) s = .next (becomes r s)) ∧
    ∀ (v : View) (rest : List Event), a ≠ 0 → s.protocolState = .enabled →
      P.passesToAlt2 a = true → P.alt2.accepts a = true → s.events = .acc a v :: rest →
      ∃ r : Resolution, resolveAlternate2 P s.hostArchitectureHint v = some r ∧
        step s = .next (State.respond (becomes r { s with events := rest, view := v }) a)

/-- 46_cpu_context.md, steps 1 to 6: under Introspect EN.ALT2 runs the accepted form's row when the
pointer check passes, and fails to Enabled when the pointer or the opcode check fails. The shift and
the register-select bits are the spec's decisions D12 and D11 (log entries 18, 14). -/
def Obligations.IntrospectRunsTheHostForm : Prop :=
  ∀ (s : State) (P : Profile) (a : Nat), s.profile = some P →
    s.hostArchitectureHint = .introspect →
    let op : HostWord := s.view.memory.read s.view.ip
    (P.alt1.accepts (s.view.ip >>> 1) = true →
      (∀ i : Instr, decodeHostOp op = some i → exec (.enAlt2 a) s = exec i s) ∧
      (decodeHostOp op = none → exec (.enAlt2 a) s = .next { s with protocolState := .enabled })) ∧
    (P.alt1.accepts (s.view.ip >>> 1) = false →
      exec (.enAlt2 a) s = .next { s with protocolState := .enabled })

/-- 46_cpu_context.md, Hint Unknown (the spec's decision D10, log entry 12): EN.ALT2 is refused, and in
a step this refusal comes from nothing else. -/
def Obligations.UnknownHintRefusesOnlyAlt2 : Prop :=
  ∀ (s : State) (P : Profile), s.profile = some P →
    (∀ a : Nat, s.hostArchitectureHint = .unknown →
      exec (.enAlt2 a) s = .refused .hintUnknown) ∧
    (step s = .refused .hintUnknown ↔
      s.hostArchitectureHint = .unknown ∧ s.protocolState = .enabled ∧
      ∃ (a : Nat) (v : View) (rest : List Event), s.events = .acc a v :: rest ∧
        a ≠ 0 ∧ P.passesToAlt2 a = true ∧ P.alt2.accepts a = true)

/-- 46_cpu_context.md, Purity: the validator's answer depends on alt1, alt3, the hint, the pointer, the
word at it and the one register the word names, and under Plain on no reading at all. -/
def Obligations.ValidatorReadsOnlyThreeValues : Prop :=
  ∀ (P Q : Profile) (v w : View), P.alt1 = Q.alt1 → P.alt3 = Q.alt3 → v.ip = w.ip →
    v.readWord v.ip = w.readWord w.ip →
    v.readReg (registerSelect (v.readWord v.ip)) = w.readReg (registerSelect (v.readWord v.ip)) →
    (∀ h : Hint, resolveAlternate2 P h v = resolveAlternate2 Q h w) ∧
    ∀ v' : View, resolveAlternate2 P .plain v = resolveAlternate2 Q .plain v'

/-! ### System events -/

/-- 41_profile_repository.md, CFG: with a part number the catalogue defines, an instance is created:
Disabled, at the profile's starting bank, hint Unknown, scratch unspecified (a toggle of 0 or 3). That
the hint starts Unknown is the spec's decision D9; the scratch values are free (log entry 4). That the
returned value and the last snapshot are cleared (log entry 7) and that no access counts as presented
(log entry 10) is the model's choice. -/
def Obligations.CfgCreatesInstance : Prop :=
  ∀ (s : State) (pn : PartNumber) (P : Profile), s.profile = none →
    lookupProfile s.catalog pn = some P →
    ∃ t : State, exec (.cfg pn) s = .next t ∧
      t.profile = some P ∧ t.protocolState = .disabled ∧ t.currentBank = P.startingBank ∧
      t.hostArchitectureHint = .unknown ∧ (t.bitToggle = 0#2 ∨ t.bitToggle = 3#2) ∧
      t.accessed = false ∧ t.result = none ∧ t.lastAccess = none ∧
      t.catalog = s.catalog ∧ t.events = s.events ∧ t.view = s.view ∧ t.sink = s.sink

/-- 60_exceptions.md, section 1: CFG with a part number the catalogue does not define raises
ConfigurationError, and a step faults in no other way. The payload is the spec's own choice (D24, log
entry 21). -/
def Obligations.ConfigurationErrorOnlyAtCfg : Prop :=
  ∀ s : State,
    (∀ pn : PartNumber, s.profile = none → lookupProfile s.catalog pn = none →
      exec (.cfg pn) s = .fault (.configurationError pn)) ∧
    ∀ f : Fault, step s = .fault f → s.profile = none ∧
      ∃ (pn : PartNumber) (rest : List Event), s.events = .cfg pn :: rest ∧
        lookupProfile s.catalog pn = none ∧ f = .configurationError pn

/-- 41_profile_repository.md, CFG: a live instance is not configured again (the spec's decision D21, log
entry 11). -/
def Obligations.LiveInstanceIsNotReconfigured : Prop :=
  ∀ (s : State) (P : Profile) (pn : PartNumber), s.profile = some P →
    exec (.cfg pn) s = .refused .reconfiguration

/-- 47_system_ops.md, HINT: the first HINT, before the first ACC, sets the hint and nothing else; a
second one, of the same value too, and a late one are refused (the spec's decision D9 and its U4, log
entry 10). That it clears the returned value is the model's choice (log entry 7). -/
def Obligations.HintIsSetOnceBeforeAccesses : Prop :=
  ∀ (s : State) (P : Profile) (f : HostFamily), s.profile = some P →
    (s.hostArchitectureHint = .unknown → s.accessed = false →
      exec (.hint f) s = .next
        { s with
          hostArchitectureHint := (match f with | .introspect => .introspect | .plain => .plain)
          result := none }) ∧
    (s.hostArchitectureHint ≠ .unknown → exec (.hint f) s = .refused .hintAlreadySet) ∧
    (s.hostArchitectureHint = .unknown → s.accessed = true →
      exec (.hint f) s = .refused .hintAfterAccess)

/-- 47_system_ops.md R190: RST gives Disabled and the starting bank, whatever was in progress, keeps
the hint, the profile and the inputs; the scratch registers may hold anything afterwards (a toggle of 0
or 3: 10_state.md R33). A second RST leaves the same. That the last snapshot and the sink stay as they
are (log entry 7), and the record of whether an access was presented (log entry 10), is the model's. -/
def Obligations.RstRestoresStartingBank : Prop :=
  ∀ (s : State) (P : Profile), s.profile = some P →
    ∃ t : State, exec .rst s = .next t ∧
      t.protocolState = .disabled ∧ t.currentBank = P.startingBank ∧
      t.hostArchitectureHint = s.hostArchitectureHint ∧ t.profile = s.profile ∧
      (t.bitToggle = 0#2 ∨ t.bitToggle = 3#2) ∧
      t.catalog = s.catalog ∧ t.events = s.events ∧ t.view = s.view ∧
      t.lastAccess = s.lastAccess ∧ t.sink = s.sink ∧ t.accessed = s.accessed ∧
      ∃ u : State, exec .rst t = .next u ∧ SameButStaleScratch t u

/-- 47_system_ops.md R191: PEEK returns the committed bank, in a mid-sequence state too, and changes
nothing. -/
def Obligations.PeekReturnsCommittedBank : Prop :=
  ∀ (s : State) (P : Profile), s.profile = some P →
    exec .peek s = .next { s with result := some s.currentBank }

/-- 47_system_ops.md, DIAG: it forwards the snapshot in hand to the sink, with no feedback into the
decoder. That the sink is a list kept newest first is the model's choice (log entry 7), and so is that
nothing is forwarded when there is no snapshot (log entry 8). -/
def Obligations.DiagForwardsLastSnapshot : Prop :=
  ∀ (s : State) (P : Profile), s.profile = some P →
    (∀ p : Snapshot, s.lastAccess = some p → exec .diag s = .next { s with sink := p :: s.sink }) ∧
    (s.lastAccess = none → exec .diag s = .next s)

/-- 47_system_ops.md R195: a restore brings all seven fields of the DecoderState back exactly, scratch
registers included, and touches nothing else. -/
def Obligations.RestoreBringsBackSevenFields : Prop :=
  ∀ s t : State,
    (t.restore s.save).save = s.save ∧
    t.restore s.save =
      { t with
        protocolState := s.protocolState
        currentBank := s.currentBank
        pendingAltBank := s.pendingAltBank
        pendingBitBank := s.pendingBitBank
        bitToggle := s.bitToggle
        pendingAddBank := s.pendingAddBank
        hostArchitectureHint := s.hostArchitectureHint }

/-! ### The whole machine -/

/-- The invariant holds at reset. -/
def Obligations.ResetMeetsInvariant : Prop := Inv State.reset

/-- What State.reset holds: the values the spec gives (Disabled, hint Unknown, no instance before CFG)
and the model's own (log entries 1 to 6). -/
def Obligations.ResetIsDisabledWithoutInstance : Prop :=
  State.reset.protocolState = .disabled ∧ State.reset.hostArchitectureHint = .unknown ∧
  State.reset.profile = none ∧ State.reset.currentBank = 0#2 ∧
  State.reset.pendingAltBank = 0#2 ∧ State.reset.pendingBitBank = 0#2 ∧
  State.reset.bitToggle = 0#2 ∧ State.reset.pendingAddBank = 0#2 ∧
  State.reset.events = [] ∧ State.reset.catalog = [] ∧ State.reset.view = View.zero

/-- Every step keeps the invariant (10_state.md, section 5): the toggle holds 0 or 3, the sequencer is
in a mode whose patterns and capability the profile has, an untouched instance is Disabled, and the
host bus of every view is in canonical form. -/
def Obligations.StepKeepsInvariant : Prop :=
  ∀ s t : State, Inv s → step s = .next t → Inv t

/-- 10_state.md, Written before read (a rule the spec marks derived): two states that differ only in
scratch registers outside their in-progress states, as after CFG and RST, cannot be told apart by any
further steps: they stop alike or go on alike, with the same outputs. -/
def Obligations.StaleScratchIsUnobservable : Prop :=
  ∀ (k : Nat) (s t : State), SameButStaleScratch s t →
    match Sys2Proof.core.run k s with
    | .next s' => ∃ t' : State, Sys2Proof.core.run k t = .next t' ∧ SameButStaleScratch s' t'
    | .fault r => Sys2Proof.core.run k t = .fault r
    | .refused r => Sys2Proof.core.run k t = .refused r

/-- After set-up (an instance, the hint settled), every sequence of ACC, RST, PEEK and DIAG, with every
address and every host-context reading, runs to its end with no fault and no refusal, and set-up stays
done. For ACC, RST and PEEK this is 60_exceptions.md R202; for DIAG, which 47_system_ops.md R194 gives no
feedback, that it runs before the first ACC too is the model's choice (log entry 8). -/
def Obligations.ReadyRunsToTheEnd : Prop :=
  ∀ s : State, Ready s → (∀ e ∈ s.events, e.isRuntime = true) →
    ∃ t : State, Sys2Proof.core.run s.events.length s = .next t ∧ t.events = [] ∧ Ready t

/-- 10_state.md, section 2: once selected, the profile is never written, nor is the catalogue or the
hint by anything but HINT. -/
def Obligations.ConfigurationIsImmutable : Prop :=
  ∀ (s t : State) (P : Profile) (e : Event) (rest : List Event),
    s.profile = some P → s.events = e :: rest → step s = .next t →
    t.profile = some P ∧ t.catalog = s.catalog ∧
    ((∀ f : HostFamily, e ≠ .hint f) → t.hostArchitectureHint = s.hostArchitectureHint)

/-- 46_cpu_context.md, step 1, corner case (which the spec marks derived): under Introspect a profile
whose alt1 is absent never enters the alternate sequence: from any state that is not in it, no step
enters it. -/
def Obligations.AbsentAltOneShutsIntrospectOut : Prop :=
  ∀ (s t : State) (P : Profile), step s = .next t →
    t.profile = some P → P.alt1 = .absent → t.hostArchitectureHint = .introspect →
    (s.protocolState ≠ .alternate1 ∧ s.protocolState ≠ .alternate2 ∧
      s.protocolState ≠ .alternate3) →
    t.protocolState ≠ .alternate1 ∧ t.protocolState ≠ .alternate2 ∧ t.protocolState ≠ .alternate3

/-- 70_reset_and_hazards.md, waiting states never time out (a rule the spec marks derived): any number of
accesses whose addresses select the stay arm leave the whole DecoderState as it is. -/
def Obligations.WaitingStatesNeverTimeOut : Prop :=
  ∀ (accs : List (Nat × View)) (s : State) (P : Profile), s.profile = some P →
    (∀ av ∈ accs, av.1 ≠ 0 ∧ staysPut P s.protocolState s.bitToggle av.1 = true) →
    s.events = accs.map (fun av => Event.acc av.1 av.2) →
    ∃ t : State, Sys2Proof.core.run accs.length s = .next t ∧ t.save = s.save ∧
      t.profile = s.profile ∧ t.events = []

/-! ### Whole sequences -/

/-- 42_fsm_global_simple.md, properties of simple mode (which the spec marks derived), with their
provisos: arming, any number of unrelated accesses, then bank address i commits bank i and ends
Disabled, from any state. -/
def Obligations.SimpleModeRoundTrip : Prop :=
  ∀ (s : State) (P : Profile) (i : Bank) (us : List Nat), s.profile = some P →
    bankAddressOf P i ≠ 0 → P.passesToBank (bankAddressOf P i) = true →
    (∀ j : Bank, j < i → bankAddressOf P j ≠ bankAddressOf P i) →
    (∀ u ∈ us, u ≠ 0 ∧ staysPut P .enabled 0#2 u = true) →
    s.events = accesses ([0] ++ us ++ [bankAddressOf P i]) →
    ∃ t : State, Sys2Proof.core.run (us.length + 2) s = .next t ∧
      t.currentBank = i ∧ t.protocolState = .disabled ∧ t.result = some i ∧ t.events = []

/-- 43_fsm_alternate.md, properties of alternate mode (which the spec marks derived), with their
proviso: the five accesses in strict succession commit the bank that the alt3 address encodes. -/
def Obligations.AlternateSequenceCommits : Prop :=
  ∀ (s : State) (P : Profile) (a1 a2 a3 a4 : Nat), s.profile = some P →
    a1 ≠ 0 → a2 ≠ 0 → a3 ≠ 0 → a4 ≠ 0 →
    P.startsBitwise a1 = false → P.startsAdditive a1 = false → P.alt1.accepts a1 = true →
    P.alt2.accepts a2 = true → P.alt3.accepts a3 = true → P.alt4.accepts a4 = true →
    s.events = scriptAlt a1 a2 a3 a4 →
    ∃ t : State, Sys2Proof.core.run 5 s = .next t ∧
      t.currentBank = bankField P.altShift a3 ∧ t.protocolState = .disabled ∧
      t.result = some t.currentBank ∧ t.events = []

/-- 46_cpu_context.md, What the validator stands for: under Introspect one visible alt2 access, with a
host word of either form at an alt1 pointer whose register addresses an alt3 location, and an alt4
access, commit the bank of that location. The shift and the register-select bits are the spec's
decisions D12 and D11 (log entries 18, 14). -/
def Obligations.ValidatorSequenceCommits : Prop :=
  ∀ (s : State) (P : Profile) (a2 a4 : Nat) (v : View) (n u : RegNum), s.profile = some P →
    s.hostArchitectureHint = .introspect → a2 ≠ 0 → a4 ≠ 0 →
    P.passesToAlt2 a2 = true → P.alt2.accepts a2 = true → P.alt1.accepts (v.ip >>> 1) = true →
    (v.memory.read v.ip = encodeFormA n u ∨ v.memory.read v.ip = encodeFormB n u) →
    P.alt3.accepts (v.readReg n >>> 1) = true → P.alt4.accepts a4 = true →
    s.events = scriptAltK a2 v a4 →
    ∃ t : State, Sys2Proof.core.run 3 s = .next t ∧
      t.currentBank = bankField P.altShift (v.readReg n >>> 1) ∧ t.protocolState = .disabled ∧
      t.result = some t.currentBank ∧ t.events = []

/-- 44_fsm_bitwise.md, the alternation rule (which the spec marks derived): a complete bitwise sequence
commits the seed (the bank before it) with the twiddles applied in order, each access compared under
the toggle the earlier ones left; the two bank addresses used do not matter. -/
def Obligations.BitwiseSequenceFoldsTwiddles : Prop :=
  ∀ (s : State) (P : Profile) (b : Nat) (i j : Bank) (ts : List Nat) (e : Nat),
    s.profile = some P → b ≠ 0 → P.startsBitwise b = true →
    bankAddressOf P i ≠ 0 → bankAddressOf P j ≠ 0 → e ≠ 0 →
    (∀ x ∈ ts, x ≠ 0 ∧ P.bit3.accepts x = false) →
    P.noTwiddle (ts.foldl (twiddleOne P) (s.currentBank, 0#2)).2 e = true →
    P.bit3.accepts e = true →
    s.events = scriptBitw b (bankAddressOf P i) ts e (bankAddressOf P j) →
    ∃ t : State, Sys2Proof.core.run (ts.length + 5) s = .next t ∧
      t.currentBank = (ts.foldl (twiddleOne P) (s.currentBank, 0#2)).1 ∧
      t.protocolState = .disabled ∧ t.events = []

/-- 45_fsm_additive.md, the arithmetic law (which the spec marks derived): a complete additive sequence,
whose last access in Additive2 is the first that matches add3, commits (seed + n1 + 2 n2) & 3. -/
def Obligations.AdditiveSequenceAddsModuloFour : Prop :=
  ∀ (s : State) (P : Profile) (a1 a2 : Nat) (us : List Nat) (e : Nat) (j : Bank),
    s.profile = some P → a1 ≠ 0 → P.startsBitwise a1 = false → P.startsAdditive a1 = true →
    a2 ≠ 0 → P.add2.accepts a2 = true →
    (∀ x ∈ us, x ≠ 0 ∧ P.add3.accepts x = false) → e ≠ 0 → P.add3.accepts e = true →
    bankAddressOf P j ≠ 0 →
    s.events = scriptAddv a1 a2 (us ++ [e]) (bankAddressOf P j) →
    ∃ t : State, Sys2Proof.core.run (us.length + 5) s = .next t ∧
      t.currentBank = s.currentBank + BitVec.ofNat 2 (increments P (us ++ [e])) ∧
      t.protocolState = .disabled ∧ t.events = []
end

