-- ==== Sys2Proof/Laws/Memory.lean ====
section
/-! SUPPORT. The laws of the host bus: reading after writing, and the canonical form, which every
operation keeps and which makes equal buses equal data. -/

namespace Sys2Proof.Machine

variable {other : HostWord} {cells : List (Nat × HostWord)} {low : Nat}

theorem cellsWf_mono {low' : Nat} (hle : low' ≤ low) (h : cellsWf other low cells = true) :
    cellsWf other low' cells = true := by
  cases cells with
  | nil => rfl
  | cons c rest =>
    obtain ⟨b, x⟩ := c
    simp only [cellsWf, Bool.and_eq_true, decide_eq_true_eq] at h ⊢
    exact ⟨⟨hle.trans h.1.1, h.1.2⟩, h.2⟩

/-- Below the first address of a canonical list every word is the unlisted one. -/
theorem cellsRead_below (h : cellsWf other low cells = true) {a : Nat} (ha : a < low) :
    cellsRead other cells a = other := by
  induction cells generalizing low with
  | nil => rfl
  | cons c rest ih =>
    obtain ⟨b, x⟩ := c
    simp only [cellsWf, Bool.and_eq_true, decide_eq_true_eq] at h
    have hab : a ≠ b := by omega
    simp only [cellsRead, if_neg hab]
    exact ih h.2 (by omega)

/-- Reading back: the written word at its address, every other word as before. -/
theorem cellsRead_cellsWrite (h : cellsWf other low cells = true) (a c : Nat) (w : HostWord) :
    cellsRead other (cellsWrite other cells a w) c =
      if c = a then w else cellsRead other cells c := by
  induction cells generalizing low with
  | nil =>
    by_cases hw : w = other <;> by_cases hc : c = a <;> simp [cellsWrite, cellsRead, hw, hc]
  | cons e rest ih =>
    obtain ⟨b, x⟩ := e
    simp only [cellsWf, Bool.and_eq_true, decide_eq_true_eq] at h
    simp only [cellsWrite]
    split
    · next hab =>
      have hrest : cellsRead other ((b, x) :: rest) a = other :=
        cellsRead_below (low := b) (by simp [cellsWf, h.1.2, h.2]) hab
      by_cases hw : w = other <;> by_cases hc : c = a <;> simp_all [cellsRead]
    · split
      · next hab =>
        subst hab
        have hrest : cellsRead other rest a = other := cellsRead_below h.2 (by omega)
        by_cases hw : w = other <;> by_cases hc : c = a <;> simp_all [cellsRead]
      · next hlt hne =>
        simp only [cellsRead, ih h.2]
        by_cases hcb : c = b <;> by_cases hc : c = a <;> simp_all

/-- A write keeps the canonical form. -/
theorem cellsWf_cellsWrite (h : cellsWf other low cells = true) {a : Nat} (ha : low ≤ a)
    (w : HostWord) : cellsWf other low (cellsWrite other cells a w) = true := by
  induction cells generalizing low with
  | nil =>
    by_cases hw : w = other <;> simp [cellsWrite, cellsWf, hw, ha]
  | cons e rest ih =>
    obtain ⟨b, x⟩ := e
    simp only [cellsWf, Bool.and_eq_true, decide_eq_true_eq] at h
    simp only [cellsWrite]
    split
    · next hab =>
      by_cases hw : w = other
      · simp [hw, cellsWf, h.1.1, h.1.2, h.2]
      · have hb : a + 1 ≤ b := hab
        simp only [hw, if_false, cellsWf, Bool.and_eq_true, decide_eq_true_eq, bne_iff_ne]
        exact ⟨⟨ha, hw⟩, ⟨hb, by simpa using h.1.2⟩, h.2⟩
    · split
      · next hab =>
        subst hab
        by_cases hw : w = other
        · simpa [hw] using cellsWf_mono (by omega) h.2
        · simp [hw, cellsWf, ha, h.2]
      · next hlt hne =>
        simp only [cellsWf, Bool.and_eq_true, decide_eq_true_eq]
        exact ⟨h.1, ih h.2 (by omega)⟩

/-- Reading a word after a write: the written word at its address, every other word as before. -/
theorem Memory.read_write (m : Memory) (h : m.wf = true) (a c : Nat) (w : HostWord) :
    (m.write a w).read c = if c = a then w else m.read c :=
  cellsRead_cellsWrite h a c w

theorem Memory.read_write_same (m : Memory) (h : m.wf = true) (a : Nat) (w : HostWord) :
    (m.write a w).read a = w := by
  simp [Memory.read_write m h]

theorem Memory.read_write_other (m : Memory) (h : m.wf = true) {a c : Nat} (hne : c ≠ a)
    (w : HostWord) : (m.write a w).read c = m.read c := by
  simp [Memory.read_write m h, hne]

/-- The one operation that changes a bus keeps its canonical form. -/
theorem Memory.wf_write (m : Memory) (h : m.wf = true) (a : Nat) (w : HostWord) :
    (m.write a w).wf = true :=
  cellsWf_cellsWrite h (Nat.zero_le a) w

theorem Memory.wf_zero : Memory.zero.wf = true := rfl

/-- The bus of the reset state is in canonical form. -/
theorem State.reset_memory_wf : State.reset.view.memory.wf = true := rfl

/-- Two canonical lists that read alike everywhere are the same list. -/
theorem cells_eq_of_read_eq {cells' : List (Nat × HostWord)} {low' : Nat}
    (h : cellsWf other low cells = true) (h' : cellsWf other low' cells' = true)
    (hr : ∀ a, cellsRead other cells a = cellsRead other cells' a) : cells = cells' := by
  induction cells generalizing low low' cells' with
  | nil =>
    cases cells' with
    | nil => rfl
    | cons e rest =>
      obtain ⟨b, x⟩ := e
      simp only [cellsWf, Bool.and_eq_true, decide_eq_true_eq, bne_iff_ne] at h'
      exact absurd (hr b).symm (by simp [cellsRead, h'.1.2])
  | cons e rest ih =>
    obtain ⟨b, x⟩ := e
    simp only [cellsWf, Bool.and_eq_true, decide_eq_true_eq, bne_iff_ne] at h
    cases cells' with
    | nil => exact absurd (hr b) (by simp [cellsRead, h.1.2])
    | cons e' rest' =>
      obtain ⟨b', x'⟩ := e'
      simp only [cellsWf, Bool.and_eq_true, decide_eq_true_eq, bne_iff_ne] at h'
      have hb : b = b' := by
        rcases Nat.lt_trichotomy b b' with hlt | heq | hgt
        · have hz : cellsRead other ((b', x') :: rest') b = other :=
            cellsRead_below (low := b') (by simp [cellsWf, h'.1.2, h'.2]) hlt
          exact absurd (hr b) (by rw [hz]; simp [cellsRead, h.1.2])
        · exact heq
        · have hz : cellsRead other ((b, x) :: rest) b' = other :=
            cellsRead_below (low := b) (by simp [cellsWf, h.1.2, h.2]) hgt
          exact absurd (hr b').symm (by rw [hz]; simp [cellsRead, h'.1.2])
      subst hb
      have hx : x = x' := by simpa [cellsRead] using hr b
      subst hx
      have hrest : rest = rest' := by
        refine ih h.2 h'.2 fun a => ?_
        by_cases ha : a = b
        · subst ha
          rw [cellsRead_below h.2 (Nat.lt_succ_self a), cellsRead_below h'.2 (Nat.lt_succ_self a)]
        · simpa [cellsRead, ha] using hr a
      rw [hrest]

/-- Equal buses are equal data: canonical memories with the same unlisted word that read alike at
every address are equal. -/
theorem Memory.eq_of_read_eq {m m' : Memory} (h : m.wf = true) (h' : m'.wf = true)
    (ho : m.other = m'.other) (hr : ∀ a, m.read a = m'.read a) : m = m' := by
  obtain ⟨o, cs⟩ := m
  obtain ⟨o', cs'⟩ := m'
  simp only at ho
  subst ho
  exact congrArg (Memory.mk o) (cells_eq_of_read_eq h h' hr)

end Sys2Proof.Machine
end

