-- ==== Sys2Proof/Laws/State.lean ====
section
/-! SUPPORT. One lemma per field per update of the state, each true by rfl, so that no later proof
unfolds a record update. -/

namespace Sys2Proof.Machine

variable (s : State)

/-! ### goto -/

@[simp] theorem State.goto_protocolState (p : ProtocolState) : (s.goto p).protocolState = p := rfl
@[simp] theorem State.goto_currentBank (p : ProtocolState) :
    (s.goto p).currentBank = s.currentBank := rfl
@[simp] theorem State.goto_pendingAltBank (p : ProtocolState) :
    (s.goto p).pendingAltBank = s.pendingAltBank := rfl
@[simp] theorem State.goto_pendingBitBank (p : ProtocolState) :
    (s.goto p).pendingBitBank = s.pendingBitBank := rfl
@[simp] theorem State.goto_bitToggle (p : ProtocolState) : (s.goto p).bitToggle = s.bitToggle := rfl
@[simp] theorem State.goto_pendingAddBank (p : ProtocolState) :
    (s.goto p).pendingAddBank = s.pendingAddBank := rfl
@[simp] theorem State.goto_hostArchitectureHint (p : ProtocolState) :
    (s.goto p).hostArchitectureHint = s.hostArchitectureHint := rfl
@[simp] theorem State.goto_profile (p : ProtocolState) : (s.goto p).profile = s.profile := rfl
@[simp] theorem State.goto_catalog (p : ProtocolState) : (s.goto p).catalog = s.catalog := rfl
@[simp] theorem State.goto_events (p : ProtocolState) : (s.goto p).events = s.events := rfl
@[simp] theorem State.goto_view (p : ProtocolState) : (s.goto p).view = s.view := rfl
@[simp] theorem State.goto_result (p : ProtocolState) : (s.goto p).result = s.result := rfl
@[simp] theorem State.goto_lastAccess (p : ProtocolState) :
    (s.goto p).lastAccess = s.lastAccess := rfl
@[simp] theorem State.goto_sink (p : ProtocolState) : (s.goto p).sink = s.sink := rfl
@[simp] theorem State.goto_accessed (p : ProtocolState) : (s.goto p).accessed = s.accessed := rfl
@[simp] theorem State.goto_freeCount (p : ProtocolState) : (s.goto p).freeCount = s.freeCount := rfl

/-! ### setBank -/

@[simp] theorem State.setBank_protocolState (b : Bank) :
    (s.setBank b).protocolState = s.protocolState := rfl
@[simp] theorem State.setBank_currentBank (b : Bank) : (s.setBank b).currentBank = b := rfl
@[simp] theorem State.setBank_pendingAltBank (b : Bank) :
    (s.setBank b).pendingAltBank = s.pendingAltBank := rfl
@[simp] theorem State.setBank_pendingBitBank (b : Bank) :
    (s.setBank b).pendingBitBank = s.pendingBitBank := rfl
@[simp] theorem State.setBank_bitToggle (b : Bank) : (s.setBank b).bitToggle = s.bitToggle := rfl
@[simp] theorem State.setBank_pendingAddBank (b : Bank) :
    (s.setBank b).pendingAddBank = s.pendingAddBank := rfl
@[simp] theorem State.setBank_hostArchitectureHint (b : Bank) :
    (s.setBank b).hostArchitectureHint = s.hostArchitectureHint := rfl
@[simp] theorem State.setBank_profile (b : Bank) : (s.setBank b).profile = s.profile := rfl
@[simp] theorem State.setBank_catalog (b : Bank) : (s.setBank b).catalog = s.catalog := rfl
@[simp] theorem State.setBank_events (b : Bank) : (s.setBank b).events = s.events := rfl
@[simp] theorem State.setBank_view (b : Bank) : (s.setBank b).view = s.view := rfl
@[simp] theorem State.setBank_result (b : Bank) : (s.setBank b).result = s.result := rfl
@[simp] theorem State.setBank_lastAccess (b : Bank) : (s.setBank b).lastAccess = s.lastAccess := rfl
@[simp] theorem State.setBank_sink (b : Bank) : (s.setBank b).sink = s.sink := rfl
@[simp] theorem State.setBank_accessed (b : Bank) : (s.setBank b).accessed = s.accessed := rfl
@[simp] theorem State.setBank_freeCount (b : Bank) : (s.setBank b).freeCount = s.freeCount := rfl

/-! ### setAlt -/

@[simp] theorem State.setAlt_protocolState (b : Bank) :
    (s.setAlt b).protocolState = s.protocolState := rfl
@[simp] theorem State.setAlt_currentBank (b : Bank) :
    (s.setAlt b).currentBank = s.currentBank := rfl
@[simp] theorem State.setAlt_pendingAltBank (b : Bank) : (s.setAlt b).pendingAltBank = b := rfl
@[simp] theorem State.setAlt_pendingBitBank (b : Bank) :
    (s.setAlt b).pendingBitBank = s.pendingBitBank := rfl
@[simp] theorem State.setAlt_bitToggle (b : Bank) : (s.setAlt b).bitToggle = s.bitToggle := rfl
@[simp] theorem State.setAlt_pendingAddBank (b : Bank) :
    (s.setAlt b).pendingAddBank = s.pendingAddBank := rfl
@[simp] theorem State.setAlt_hostArchitectureHint (b : Bank) :
    (s.setAlt b).hostArchitectureHint = s.hostArchitectureHint := rfl
@[simp] theorem State.setAlt_profile (b : Bank) : (s.setAlt b).profile = s.profile := rfl
@[simp] theorem State.setAlt_catalog (b : Bank) : (s.setAlt b).catalog = s.catalog := rfl
@[simp] theorem State.setAlt_events (b : Bank) : (s.setAlt b).events = s.events := rfl
@[simp] theorem State.setAlt_view (b : Bank) : (s.setAlt b).view = s.view := rfl
@[simp] theorem State.setAlt_result (b : Bank) : (s.setAlt b).result = s.result := rfl
@[simp] theorem State.setAlt_lastAccess (b : Bank) : (s.setAlt b).lastAccess = s.lastAccess := rfl
@[simp] theorem State.setAlt_sink (b : Bank) : (s.setAlt b).sink = s.sink := rfl
@[simp] theorem State.setAlt_accessed (b : Bank) : (s.setAlt b).accessed = s.accessed := rfl
@[simp] theorem State.setAlt_freeCount (b : Bank) : (s.setAlt b).freeCount = s.freeCount := rfl

/-! ### setBits -/

@[simp] theorem State.setBits_protocolState (b : Bank) :
    (s.setBits b).protocolState = s.protocolState := rfl
@[simp] theorem State.setBits_currentBank (b : Bank) :
    (s.setBits b).currentBank = s.currentBank := rfl
@[simp] theorem State.setBits_pendingAltBank (b : Bank) :
    (s.setBits b).pendingAltBank = s.pendingAltBank := rfl
@[simp] theorem State.setBits_pendingBitBank (b : Bank) : (s.setBits b).pendingBitBank = b := rfl
@[simp] theorem State.setBits_bitToggle (b : Bank) : (s.setBits b).bitToggle = s.bitToggle := rfl
@[simp] theorem State.setBits_pendingAddBank (b : Bank) :
    (s.setBits b).pendingAddBank = s.pendingAddBank := rfl
@[simp] theorem State.setBits_hostArchitectureHint (b : Bank) :
    (s.setBits b).hostArchitectureHint = s.hostArchitectureHint := rfl
@[simp] theorem State.setBits_profile (b : Bank) : (s.setBits b).profile = s.profile := rfl
@[simp] theorem State.setBits_catalog (b : Bank) : (s.setBits b).catalog = s.catalog := rfl
@[simp] theorem State.setBits_events (b : Bank) : (s.setBits b).events = s.events := rfl
@[simp] theorem State.setBits_view (b : Bank) : (s.setBits b).view = s.view := rfl
@[simp] theorem State.setBits_result (b : Bank) : (s.setBits b).result = s.result := rfl
@[simp] theorem State.setBits_lastAccess (b : Bank) : (s.setBits b).lastAccess = s.lastAccess := rfl
@[simp] theorem State.setBits_sink (b : Bank) : (s.setBits b).sink = s.sink := rfl
@[simp] theorem State.setBits_accessed (b : Bank) : (s.setBits b).accessed = s.accessed := rfl
@[simp] theorem State.setBits_freeCount (b : Bank) : (s.setBits b).freeCount = s.freeCount := rfl

/-! ### setToggle -/

@[simp] theorem State.setToggle_protocolState (t : Bank) :
    (s.setToggle t).protocolState = s.protocolState := rfl
@[simp] theorem State.setToggle_currentBank (t : Bank) :
    (s.setToggle t).currentBank = s.currentBank := rfl
@[simp] theorem State.setToggle_pendingAltBank (t : Bank) :
    (s.setToggle t).pendingAltBank = s.pendingAltBank := rfl
@[simp] theorem State.setToggle_pendingBitBank (t : Bank) :
    (s.setToggle t).pendingBitBank = s.pendingBitBank := rfl
@[simp] theorem State.setToggle_bitToggle (t : Bank) : (s.setToggle t).bitToggle = t := rfl
@[simp] theorem State.setToggle_pendingAddBank (t : Bank) :
    (s.setToggle t).pendingAddBank = s.pendingAddBank := rfl
@[simp] theorem State.setToggle_hostArchitectureHint (t : Bank) :
    (s.setToggle t).hostArchitectureHint = s.hostArchitectureHint := rfl
@[simp] theorem State.setToggle_profile (t : Bank) : (s.setToggle t).profile = s.profile := rfl
@[simp] theorem State.setToggle_catalog (t : Bank) : (s.setToggle t).catalog = s.catalog := rfl
@[simp] theorem State.setToggle_events (t : Bank) : (s.setToggle t).events = s.events := rfl
@[simp] theorem State.setToggle_view (t : Bank) : (s.setToggle t).view = s.view := rfl
@[simp] theorem State.setToggle_result (t : Bank) : (s.setToggle t).result = s.result := rfl
@[simp] theorem State.setToggle_lastAccess (t : Bank) :
    (s.setToggle t).lastAccess = s.lastAccess := rfl
@[simp] theorem State.setToggle_sink (t : Bank) : (s.setToggle t).sink = s.sink := rfl
@[simp] theorem State.setToggle_accessed (t : Bank) : (s.setToggle t).accessed = s.accessed := rfl
@[simp] theorem State.setToggle_freeCount (t : Bank) :
    (s.setToggle t).freeCount = s.freeCount := rfl

/-! ### setAdd -/

@[simp] theorem State.setAdd_protocolState (b : Bank) :
    (s.setAdd b).protocolState = s.protocolState := rfl
@[simp] theorem State.setAdd_currentBank (b : Bank) :
    (s.setAdd b).currentBank = s.currentBank := rfl
@[simp] theorem State.setAdd_pendingAltBank (b : Bank) :
    (s.setAdd b).pendingAltBank = s.pendingAltBank := rfl
@[simp] theorem State.setAdd_pendingBitBank (b : Bank) :
    (s.setAdd b).pendingBitBank = s.pendingBitBank := rfl
@[simp] theorem State.setAdd_bitToggle (b : Bank) : (s.setAdd b).bitToggle = s.bitToggle := rfl
@[simp] theorem State.setAdd_pendingAddBank (b : Bank) : (s.setAdd b).pendingAddBank = b := rfl
@[simp] theorem State.setAdd_hostArchitectureHint (b : Bank) :
    (s.setAdd b).hostArchitectureHint = s.hostArchitectureHint := rfl
@[simp] theorem State.setAdd_profile (b : Bank) : (s.setAdd b).profile = s.profile := rfl
@[simp] theorem State.setAdd_catalog (b : Bank) : (s.setAdd b).catalog = s.catalog := rfl
@[simp] theorem State.setAdd_events (b : Bank) : (s.setAdd b).events = s.events := rfl
@[simp] theorem State.setAdd_view (b : Bank) : (s.setAdd b).view = s.view := rfl
@[simp] theorem State.setAdd_result (b : Bank) : (s.setAdd b).result = s.result := rfl
@[simp] theorem State.setAdd_lastAccess (b : Bank) : (s.setAdd b).lastAccess = s.lastAccess := rfl
@[simp] theorem State.setAdd_sink (b : Bank) : (s.setAdd b).sink = s.sink := rfl
@[simp] theorem State.setAdd_accessed (b : Bank) : (s.setAdd b).accessed = s.accessed := rfl
@[simp] theorem State.setAdd_freeCount (b : Bank) : (s.setAdd b).freeCount = s.freeCount := rfl

/-! ### setHint -/

@[simp] theorem State.setHint_protocolState (h : Hint) :
    (s.setHint h).protocolState = s.protocolState := rfl
@[simp] theorem State.setHint_currentBank (h : Hint) :
    (s.setHint h).currentBank = s.currentBank := rfl
@[simp] theorem State.setHint_pendingAltBank (h : Hint) :
    (s.setHint h).pendingAltBank = s.pendingAltBank := rfl
@[simp] theorem State.setHint_pendingBitBank (h : Hint) :
    (s.setHint h).pendingBitBank = s.pendingBitBank := rfl
@[simp] theorem State.setHint_bitToggle (h : Hint) : (s.setHint h).bitToggle = s.bitToggle := rfl
@[simp] theorem State.setHint_pendingAddBank (h : Hint) :
    (s.setHint h).pendingAddBank = s.pendingAddBank := rfl
@[simp] theorem State.setHint_hostArchitectureHint (h : Hint) :
    (s.setHint h).hostArchitectureHint = h := rfl
@[simp] theorem State.setHint_profile (h : Hint) : (s.setHint h).profile = s.profile := rfl
@[simp] theorem State.setHint_catalog (h : Hint) : (s.setHint h).catalog = s.catalog := rfl
@[simp] theorem State.setHint_events (h : Hint) : (s.setHint h).events = s.events := rfl
@[simp] theorem State.setHint_view (h : Hint) : (s.setHint h).view = s.view := rfl
@[simp] theorem State.setHint_result (h : Hint) : (s.setHint h).result = s.result := rfl
@[simp] theorem State.setHint_lastAccess (h : Hint) : (s.setHint h).lastAccess = s.lastAccess := rfl
@[simp] theorem State.setHint_sink (h : Hint) : (s.setHint h).sink = s.sink := rfl
@[simp] theorem State.setHint_accessed (h : Hint) : (s.setHint h).accessed = s.accessed := rfl
@[simp] theorem State.setHint_freeCount (h : Hint) : (s.setHint h).freeCount = s.freeCount := rfl

/-! ### setProfile -/

@[simp] theorem State.setProfile_protocolState (P : Profile) :
    (s.setProfile P).protocolState = s.protocolState := rfl
@[simp] theorem State.setProfile_currentBank (P : Profile) :
    (s.setProfile P).currentBank = s.currentBank := rfl
@[simp] theorem State.setProfile_pendingAltBank (P : Profile) :
    (s.setProfile P).pendingAltBank = s.pendingAltBank := rfl
@[simp] theorem State.setProfile_pendingBitBank (P : Profile) :
    (s.setProfile P).pendingBitBank = s.pendingBitBank := rfl
@[simp] theorem State.setProfile_bitToggle (P : Profile) :
    (s.setProfile P).bitToggle = s.bitToggle := rfl
@[simp] theorem State.setProfile_pendingAddBank (P : Profile) :
    (s.setProfile P).pendingAddBank = s.pendingAddBank := rfl
@[simp] theorem State.setProfile_hostArchitectureHint (P : Profile) :
    (s.setProfile P).hostArchitectureHint = s.hostArchitectureHint := rfl
@[simp] theorem State.setProfile_profile (P : Profile) : (s.setProfile P).profile = some P := rfl
@[simp] theorem State.setProfile_catalog (P : Profile) : (s.setProfile P).catalog = s.catalog := rfl
@[simp] theorem State.setProfile_events (P : Profile) : (s.setProfile P).events = s.events := rfl
@[simp] theorem State.setProfile_view (P : Profile) : (s.setProfile P).view = s.view := rfl
@[simp] theorem State.setProfile_result (P : Profile) : (s.setProfile P).result = s.result := rfl
@[simp] theorem State.setProfile_lastAccess (P : Profile) :
    (s.setProfile P).lastAccess = s.lastAccess := rfl
@[simp] theorem State.setProfile_sink (P : Profile) : (s.setProfile P).sink = s.sink := rfl
@[simp] theorem State.setProfile_accessed (P : Profile) :
    (s.setProfile P).accessed = s.accessed := rfl
@[simp] theorem State.setProfile_freeCount (P : Profile) :
    (s.setProfile P).freeCount = s.freeCount := rfl

/-! ### answer -/

@[simp] theorem State.answer_protocolState (r : Option Bank) :
    (s.answer r).protocolState = s.protocolState := rfl
@[simp] theorem State.answer_currentBank (r : Option Bank) :
    (s.answer r).currentBank = s.currentBank := rfl
@[simp] theorem State.answer_pendingAltBank (r : Option Bank) :
    (s.answer r).pendingAltBank = s.pendingAltBank := rfl
@[simp] theorem State.answer_pendingBitBank (r : Option Bank) :
    (s.answer r).pendingBitBank = s.pendingBitBank := rfl
@[simp] theorem State.answer_bitToggle (r : Option Bank) :
    (s.answer r).bitToggle = s.bitToggle := rfl
@[simp] theorem State.answer_pendingAddBank (r : Option Bank) :
    (s.answer r).pendingAddBank = s.pendingAddBank := rfl
@[simp] theorem State.answer_hostArchitectureHint (r : Option Bank) :
    (s.answer r).hostArchitectureHint = s.hostArchitectureHint := rfl
@[simp] theorem State.answer_profile (r : Option Bank) : (s.answer r).profile = s.profile := rfl
@[simp] theorem State.answer_catalog (r : Option Bank) : (s.answer r).catalog = s.catalog := rfl
@[simp] theorem State.answer_events (r : Option Bank) : (s.answer r).events = s.events := rfl
@[simp] theorem State.answer_view (r : Option Bank) : (s.answer r).view = s.view := rfl
@[simp] theorem State.answer_result (r : Option Bank) : (s.answer r).result = r := rfl
@[simp] theorem State.answer_lastAccess (r : Option Bank) :
    (s.answer r).lastAccess = s.lastAccess := rfl
@[simp] theorem State.answer_sink (r : Option Bank) : (s.answer r).sink = s.sink := rfl
@[simp] theorem State.answer_accessed (r : Option Bank) : (s.answer r).accessed = s.accessed := rfl
@[simp] theorem State.answer_freeCount (r : Option Bank) :
    (s.answer r).freeCount = s.freeCount := rfl

/-! ### commit -/

@[simp] theorem State.commit_protocolState (b : Bank) :
    (s.commit b).protocolState = .disabled := rfl
@[simp] theorem State.commit_currentBank (b : Bank) : (s.commit b).currentBank = b := rfl
@[simp] theorem State.commit_pendingAltBank (b : Bank) :
    (s.commit b).pendingAltBank = s.pendingAltBank := rfl
@[simp] theorem State.commit_pendingBitBank (b : Bank) :
    (s.commit b).pendingBitBank = s.pendingBitBank := rfl
@[simp] theorem State.commit_bitToggle (b : Bank) : (s.commit b).bitToggle = s.bitToggle := rfl
@[simp] theorem State.commit_pendingAddBank (b : Bank) :
    (s.commit b).pendingAddBank = s.pendingAddBank := rfl
@[simp] theorem State.commit_hostArchitectureHint (b : Bank) :
    (s.commit b).hostArchitectureHint = s.hostArchitectureHint := rfl
@[simp] theorem State.commit_profile (b : Bank) : (s.commit b).profile = s.profile := rfl
@[simp] theorem State.commit_catalog (b : Bank) : (s.commit b).catalog = s.catalog := rfl
@[simp] theorem State.commit_events (b : Bank) : (s.commit b).events = s.events := rfl
@[simp] theorem State.commit_view (b : Bank) : (s.commit b).view = s.view := rfl
@[simp] theorem State.commit_result (b : Bank) : (s.commit b).result = s.result := rfl
@[simp] theorem State.commit_lastAccess (b : Bank) : (s.commit b).lastAccess = s.lastAccess := rfl
@[simp] theorem State.commit_sink (b : Bank) : (s.commit b).sink = s.sink := rfl
@[simp] theorem State.commit_accessed (b : Bank) : (s.commit b).accessed = s.accessed := rfl
@[simp] theorem State.commit_freeCount (b : Bank) : (s.commit b).freeCount = s.freeCount := rfl

/-! ### twiddle -/

@[simp] theorem State.twiddle_protocolState (f : Bank → Bank) :
    (s.twiddle f).protocolState = s.protocolState := rfl
@[simp] theorem State.twiddle_currentBank (f : Bank → Bank) :
    (s.twiddle f).currentBank = s.currentBank := rfl
@[simp] theorem State.twiddle_pendingAltBank (f : Bank → Bank) :
    (s.twiddle f).pendingAltBank = s.pendingAltBank := rfl
@[simp] theorem State.twiddle_pendingBitBank (f : Bank → Bank) :
    (s.twiddle f).pendingBitBank = f s.pendingBitBank := rfl
@[simp] theorem State.twiddle_bitToggle (f : Bank → Bank) :
    (s.twiddle f).bitToggle = toggleFlip s.bitToggle := rfl
@[simp] theorem State.twiddle_pendingAddBank (f : Bank → Bank) :
    (s.twiddle f).pendingAddBank = s.pendingAddBank := rfl
@[simp] theorem State.twiddle_hostArchitectureHint (f : Bank → Bank) :
    (s.twiddle f).hostArchitectureHint = s.hostArchitectureHint := rfl
@[simp] theorem State.twiddle_profile (f : Bank → Bank) : (s.twiddle f).profile = s.profile := rfl
@[simp] theorem State.twiddle_catalog (f : Bank → Bank) : (s.twiddle f).catalog = s.catalog := rfl
@[simp] theorem State.twiddle_events (f : Bank → Bank) : (s.twiddle f).events = s.events := rfl
@[simp] theorem State.twiddle_view (f : Bank → Bank) : (s.twiddle f).view = s.view := rfl
@[simp] theorem State.twiddle_result (f : Bank → Bank) : (s.twiddle f).result = s.result := rfl
@[simp] theorem State.twiddle_lastAccess (f : Bank → Bank) :
    (s.twiddle f).lastAccess = s.lastAccess := rfl
@[simp] theorem State.twiddle_sink (f : Bank → Bank) : (s.twiddle f).sink = s.sink := rfl
@[simp] theorem State.twiddle_accessed (f : Bank → Bank) :
    (s.twiddle f).accessed = s.accessed := rfl
@[simp] theorem State.twiddle_freeCount (f : Bank → Bank) :
    (s.twiddle f).freeCount = s.freeCount := rfl

/-! ### unspecifyScratch -/

@[simp] theorem State.unspecifyScratch_protocolState :
    s.unspecifyScratch.protocolState = s.protocolState := rfl
@[simp] theorem State.unspecifyScratch_currentBank :
    s.unspecifyScratch.currentBank = s.currentBank := rfl
@[simp] theorem State.unspecifyScratch_pendingAltBank :
    s.unspecifyScratch.pendingAltBank = Config.unspecifiedAltBank s.freeCount := rfl
@[simp] theorem State.unspecifyScratch_pendingBitBank :
    s.unspecifyScratch.pendingBitBank = Config.unspecifiedBitBank s.freeCount := rfl
@[simp] theorem State.unspecifyScratch_bitToggle :
    s.unspecifyScratch.bitToggle = if Config.unspecifiedToggle s.freeCount then 3#2 else 0#2 := rfl
@[simp] theorem State.unspecifyScratch_pendingAddBank :
    s.unspecifyScratch.pendingAddBank = Config.unspecifiedAddBank s.freeCount := rfl
@[simp] theorem State.unspecifyScratch_hostArchitectureHint :
    s.unspecifyScratch.hostArchitectureHint = s.hostArchitectureHint := rfl
@[simp] theorem State.unspecifyScratch_profile : s.unspecifyScratch.profile = s.profile := rfl
@[simp] theorem State.unspecifyScratch_catalog : s.unspecifyScratch.catalog = s.catalog := rfl
@[simp] theorem State.unspecifyScratch_events : s.unspecifyScratch.events = s.events := rfl
@[simp] theorem State.unspecifyScratch_view : s.unspecifyScratch.view = s.view := rfl
@[simp] theorem State.unspecifyScratch_result : s.unspecifyScratch.result = s.result := rfl
@[simp] theorem State.unspecifyScratch_lastAccess :
    s.unspecifyScratch.lastAccess = s.lastAccess := rfl
@[simp] theorem State.unspecifyScratch_sink : s.unspecifyScratch.sink = s.sink := rfl
@[simp] theorem State.unspecifyScratch_accessed : s.unspecifyScratch.accessed = s.accessed := rfl
@[simp] theorem State.unspecifyScratch_freeCount :
    s.unspecifyScratch.freeCount = s.freeCount + 1 := rfl

/-! ### initialise -/

@[simp] theorem State.initialise_protocolState (P : Profile) :
    (s.initialise P).protocolState = .disabled := rfl
@[simp] theorem State.initialise_currentBank (P : Profile) :
    (s.initialise P).currentBank = P.startingBank := rfl
@[simp] theorem State.initialise_pendingAltBank (P : Profile) :
    (s.initialise P).pendingAltBank = Config.unspecifiedAltBank s.freeCount := rfl
@[simp] theorem State.initialise_pendingBitBank (P : Profile) :
    (s.initialise P).pendingBitBank = Config.unspecifiedBitBank s.freeCount := rfl
@[simp] theorem State.initialise_bitToggle (P : Profile) :
    (s.initialise P).bitToggle = if Config.unspecifiedToggle s.freeCount then 3#2 else 0#2 := rfl
@[simp] theorem State.initialise_pendingAddBank (P : Profile) :
    (s.initialise P).pendingAddBank = Config.unspecifiedAddBank s.freeCount := rfl
@[simp] theorem State.initialise_hostArchitectureHint (P : Profile) :
    (s.initialise P).hostArchitectureHint = s.hostArchitectureHint := rfl
@[simp] theorem State.initialise_profile (P : Profile) : (s.initialise P).profile = s.profile := rfl
@[simp] theorem State.initialise_catalog (P : Profile) : (s.initialise P).catalog = s.catalog := rfl
@[simp] theorem State.initialise_events (P : Profile) : (s.initialise P).events = s.events := rfl
@[simp] theorem State.initialise_view (P : Profile) : (s.initialise P).view = s.view := rfl
@[simp] theorem State.initialise_result (P : Profile) : (s.initialise P).result = s.result := rfl
@[simp] theorem State.initialise_lastAccess (P : Profile) :
    (s.initialise P).lastAccess = s.lastAccess := rfl
@[simp] theorem State.initialise_sink (P : Profile) : (s.initialise P).sink = s.sink := rfl
@[simp] theorem State.initialise_accessed (P : Profile) :
    (s.initialise P).accessed = s.accessed := rfl
@[simp] theorem State.initialise_freeCount (P : Profile) :
    (s.initialise P).freeCount = s.freeCount + 1 := rfl

/-! ### create -/

@[simp] theorem State.create_protocolState (P : Profile) :
    (s.create P).protocolState = .disabled := rfl
@[simp] theorem State.create_currentBank (P : Profile) :
    (s.create P).currentBank = P.startingBank := rfl
@[simp] theorem State.create_pendingAltBank (P : Profile) :
    (s.create P).pendingAltBank = Config.unspecifiedAltBank s.freeCount := rfl
@[simp] theorem State.create_pendingBitBank (P : Profile) :
    (s.create P).pendingBitBank = Config.unspecifiedBitBank s.freeCount := rfl
@[simp] theorem State.create_bitToggle (P : Profile) :
    (s.create P).bitToggle = if Config.unspecifiedToggle s.freeCount then 3#2 else 0#2 := rfl
@[simp] theorem State.create_pendingAddBank (P : Profile) :
    (s.create P).pendingAddBank = Config.unspecifiedAddBank s.freeCount := rfl
@[simp] theorem State.create_hostArchitectureHint (P : Profile) :
    (s.create P).hostArchitectureHint = .unknown := rfl
@[simp] theorem State.create_profile (P : Profile) : (s.create P).profile = some P := rfl
@[simp] theorem State.create_catalog (P : Profile) : (s.create P).catalog = s.catalog := rfl
@[simp] theorem State.create_events (P : Profile) : (s.create P).events = s.events := rfl
@[simp] theorem State.create_view (P : Profile) : (s.create P).view = s.view := rfl
@[simp] theorem State.create_result (P : Profile) : (s.create P).result = s.result := rfl
@[simp] theorem State.create_lastAccess (P : Profile) : (s.create P).lastAccess = none := rfl
@[simp] theorem State.create_sink (P : Profile) : (s.create P).sink = s.sink := rfl
@[simp] theorem State.create_accessed (P : Profile) : (s.create P).accessed = false := rfl
@[simp] theorem State.create_freeCount (P : Profile) :
    (s.create P).freeCount = s.freeCount + 1 := rfl

/-! ### present -/

@[simp] theorem State.present_protocolState (v : View) :
    (s.present v).protocolState = s.protocolState := rfl
@[simp] theorem State.present_currentBank (v : View) :
    (s.present v).currentBank = s.currentBank := rfl
@[simp] theorem State.present_pendingAltBank (v : View) :
    (s.present v).pendingAltBank = s.pendingAltBank := rfl
@[simp] theorem State.present_pendingBitBank (v : View) :
    (s.present v).pendingBitBank = s.pendingBitBank := rfl
@[simp] theorem State.present_bitToggle (v : View) : (s.present v).bitToggle = s.bitToggle := rfl
@[simp] theorem State.present_pendingAddBank (v : View) :
    (s.present v).pendingAddBank = s.pendingAddBank := rfl
@[simp] theorem State.present_hostArchitectureHint (v : View) :
    (s.present v).hostArchitectureHint = s.hostArchitectureHint := rfl
@[simp] theorem State.present_profile (v : View) : (s.present v).profile = s.profile := rfl
@[simp] theorem State.present_catalog (v : View) : (s.present v).catalog = s.catalog := rfl
@[simp] theorem State.present_events (v : View) : (s.present v).events = s.events := rfl
@[simp] theorem State.present_view (v : View) : (s.present v).view = v := rfl
@[simp] theorem State.present_result (v : View) : (s.present v).result = s.result := rfl
@[simp] theorem State.present_lastAccess (v : View) : (s.present v).lastAccess = s.lastAccess := rfl
@[simp] theorem State.present_sink (v : View) : (s.present v).sink = s.sink := rfl
@[simp] theorem State.present_accessed (v : View) : (s.present v).accessed = s.accessed := rfl
@[simp] theorem State.present_freeCount (v : View) : (s.present v).freeCount = s.freeCount := rfl

/-! ### dequeue -/

@[simp] theorem State.dequeue_protocolState (rest : List Event) :
    (s.dequeue rest).protocolState = s.protocolState := rfl
@[simp] theorem State.dequeue_currentBank (rest : List Event) :
    (s.dequeue rest).currentBank = s.currentBank := rfl
@[simp] theorem State.dequeue_pendingAltBank (rest : List Event) :
    (s.dequeue rest).pendingAltBank = s.pendingAltBank := rfl
@[simp] theorem State.dequeue_pendingBitBank (rest : List Event) :
    (s.dequeue rest).pendingBitBank = s.pendingBitBank := rfl
@[simp] theorem State.dequeue_bitToggle (rest : List Event) :
    (s.dequeue rest).bitToggle = s.bitToggle := rfl
@[simp] theorem State.dequeue_pendingAddBank (rest : List Event) :
    (s.dequeue rest).pendingAddBank = s.pendingAddBank := rfl
@[simp] theorem State.dequeue_hostArchitectureHint (rest : List Event) :
    (s.dequeue rest).hostArchitectureHint = s.hostArchitectureHint := rfl
@[simp] theorem State.dequeue_profile (rest : List Event) :
    (s.dequeue rest).profile = s.profile := rfl
@[simp] theorem State.dequeue_catalog (rest : List Event) :
    (s.dequeue rest).catalog = s.catalog := rfl
@[simp] theorem State.dequeue_events (rest : List Event) : (s.dequeue rest).events = rest := rfl
@[simp] theorem State.dequeue_view (rest : List Event) : (s.dequeue rest).view = s.view := rfl
@[simp] theorem State.dequeue_result (rest : List Event) : (s.dequeue rest).result = s.result := rfl
@[simp] theorem State.dequeue_lastAccess (rest : List Event) :
    (s.dequeue rest).lastAccess = s.lastAccess := rfl
@[simp] theorem State.dequeue_sink (rest : List Event) : (s.dequeue rest).sink = s.sink := rfl
@[simp] theorem State.dequeue_accessed (rest : List Event) :
    (s.dequeue rest).accessed = s.accessed := rfl
@[simp] theorem State.dequeue_freeCount (rest : List Event) :
    (s.dequeue rest).freeCount = s.freeCount := rfl

/-! ### respond -/

@[simp] theorem State.respond_protocolState (a : Nat) :
    (s.respond a).protocolState = s.protocolState := rfl
@[simp] theorem State.respond_currentBank (a : Nat) :
    (s.respond a).currentBank = s.currentBank := rfl
@[simp] theorem State.respond_pendingAltBank (a : Nat) :
    (s.respond a).pendingAltBank = s.pendingAltBank := rfl
@[simp] theorem State.respond_pendingBitBank (a : Nat) :
    (s.respond a).pendingBitBank = s.pendingBitBank := rfl
@[simp] theorem State.respond_bitToggle (a : Nat) : (s.respond a).bitToggle = s.bitToggle := rfl
@[simp] theorem State.respond_pendingAddBank (a : Nat) :
    (s.respond a).pendingAddBank = s.pendingAddBank := rfl
@[simp] theorem State.respond_hostArchitectureHint (a : Nat) :
    (s.respond a).hostArchitectureHint = s.hostArchitectureHint := rfl
@[simp] theorem State.respond_profile (a : Nat) : (s.respond a).profile = s.profile := rfl
@[simp] theorem State.respond_catalog (a : Nat) : (s.respond a).catalog = s.catalog := rfl
@[simp] theorem State.respond_events (a : Nat) : (s.respond a).events = s.events := rfl
@[simp] theorem State.respond_view (a : Nat) : (s.respond a).view = s.view := rfl
@[simp] theorem State.respond_result (a : Nat) :
    (s.respond a).result = some s.currentBank := rfl
@[simp] theorem State.respond_lastAccess (a : Nat) :
    (s.respond a).lastAccess = some ⟨a, s.currentBank, s.protocolState⟩ := rfl
@[simp] theorem State.respond_sink (a : Nat) : (s.respond a).sink = s.sink := rfl
@[simp] theorem State.respond_accessed (a : Nat) : (s.respond a).accessed = true := rfl
@[simp] theorem State.respond_freeCount (a : Nat) : (s.respond a).freeCount = s.freeCount := rfl

/-! ### forward, save and restore, mode -/

@[simp] theorem State.forward_protocolState : s.forward.protocolState = s.protocolState := by
  unfold State.forward; split <;> rfl
@[simp] theorem State.forward_currentBank : s.forward.currentBank = s.currentBank := by
  unfold State.forward; split <;> rfl
@[simp] theorem State.forward_pendingAltBank : s.forward.pendingAltBank = s.pendingAltBank := by
  unfold State.forward; split <;> rfl
@[simp] theorem State.forward_pendingBitBank : s.forward.pendingBitBank = s.pendingBitBank := by
  unfold State.forward; split <;> rfl
@[simp] theorem State.forward_bitToggle : s.forward.bitToggle = s.bitToggle := by
  unfold State.forward; split <;> rfl
@[simp] theorem State.forward_pendingAddBank : s.forward.pendingAddBank = s.pendingAddBank := by
  unfold State.forward; split <;> rfl
@[simp] theorem State.forward_hostArchitectureHint : s.forward.hostArchitectureHint = s.hostArchitectureHint := by
  unfold State.forward; split <;> rfl
@[simp] theorem State.forward_profile : s.forward.profile = s.profile := by
  unfold State.forward; split <;> rfl
@[simp] theorem State.forward_catalog : s.forward.catalog = s.catalog := by
  unfold State.forward; split <;> rfl
@[simp] theorem State.forward_events : s.forward.events = s.events := by
  unfold State.forward; split <;> rfl
@[simp] theorem State.forward_view : s.forward.view = s.view := by
  unfold State.forward; split <;> rfl
@[simp] theorem State.forward_result : s.forward.result = s.result := by
  unfold State.forward; split <;> rfl
@[simp] theorem State.forward_lastAccess : s.forward.lastAccess = s.lastAccess := by
  unfold State.forward; split <;> rfl
@[simp] theorem State.forward_accessed : s.forward.accessed = s.accessed := by
  unfold State.forward; split <;> rfl
@[simp] theorem State.forward_freeCount : s.forward.freeCount = s.freeCount := by
  unfold State.forward; split <;> rfl

/-- DIAG puts the snapshot of the last ACC before the ones already forwarded, if there is one. -/
@[simp] theorem State.forward_sink : s.forward.sink = s.lastAccess.toList ++ s.sink := by
  unfold State.forward; split <;> simp_all

@[simp] theorem State.mode_profile (P : Profile) : (s.mode P).profile = P := rfl
@[simp] theorem State.mode_protocolState (P : Profile) :
    (s.mode P).protocolState = s.protocolState := rfl
@[simp] theorem State.mode_bitToggle (P : Profile) : (s.mode P).bitToggle = s.bitToggle := rfl
@[simp] theorem State.mode_hint (P : Profile) : (s.mode P).hint = s.hostArchitectureHint := rfl

end Sys2Proof.Machine
end

