-- ==== Sys2Proof/Laws/Ops.lean ====
section
/-! SUPPORT. What each shared operation can do, said once: cite these instead of unfolding. -/

namespace Sys2Proof.Machine

/-! ### Outcomes -/

theorem onInstance_some {s : State} {P : Profile} {k : Profile → Result} (h : s.profile = some P) :
    onInstance s k = k P := by
  simp [onInstance, h]

theorem onInstance_none {s : State} {k : Profile → Result} (h : s.profile = none) :
    onInstance s k = .refused .noInstance := by
  simp [onInstance, h]

/-- An event that does not stop found an instance. -/
theorem onInstance_next {s t : State} {k : Profile → Result} (h : onInstance s k = .next t) :
    ∃ P, s.profile = some P ∧ k P = .next t := by
  cases hP : s.profile with
  | none => simp [onInstance, hP] at h
  | some P => exact ⟨P, rfl, by simpa [onInstance, hP] using h⟩

@[simp] theorem mapNext_next (f : State → State) (s : State) : mapNext f (.next s) = .next (f s) := rfl
@[simp] theorem mapNext_fault (f : State → State) (e : Fault) : mapNext f (.fault e) = .fault e := rfl
@[simp] theorem mapNext_refused (f : State → State) (e : Refusal) :
    mapNext f (.refused e) = .refused e := rfl

theorem mapNext_eq_next {f : State → State} {r : Result} {t : State} (h : mapNext f r = .next t) :
    ∃ u, r = .next u ∧ t = f u := by
  cases r with
  | next u => exact ⟨u, rfl, by simpa [mapNext] using h.symm⟩
  | fault e => simp [mapNext] at h
  | refused e => simp [mapNext] at h

@[simp] theorem runRows_nil (s : State) : runRows [] s = .next s := rfl

/-- One row is run as exec runs it. -/
@[simp] theorem runRows_singleton (i : Instr) (s : State) : runRows [i] s = exec i s := by
  simp only [runRows]
  cases exec i s <;> rfl

theorem runRows_cons {i : Instr} {rest : List Instr} {s t : State} (h : exec i s = .next t) :
    runRows (i :: rest) s = runRows rest t := by
  simp [runRows, h]

/-! ### Operands -/

/-- The four bank addresses are all the comparator looks at. -/
theorem isBankAddress_eq (P : Profile) (a : Nat) :
    P.isBankAddress a = (a == P.bankAddress0 || a == P.bankAddress1 || a == P.bankAddress2 ||
      a == P.bankAddress3) := by
  unfold Profile.isBankAddress Profile.bankIndex
  split_ifs <;> simp_all

/-- Accepting an address takes a pattern that is present. -/
theorem present_of_accepts {p : TriggerPattern} {a : Nat} (h : p.accepts a = true) : p ≠ .absent := by
  rintro rfl
  simp [TriggerPattern.accepts] at h

/-- Flipping keeps the toggle at 0 or 3. -/
theorem toggleFlip_legal {t : Bank} (h : t = 0#2 ∨ t = 3#2) : toggleFlip t = 0#2 ∨ toggleFlip t = 3#2 := by
  rcases h with rfl | rfl <;> decide

/-- Whatever the free value is, the toggle is 0 or 3 after CFG and RST. -/
theorem unspecifyScratch_toggle_legal (s : State) :
    s.unspecifyScratch.bitToggle = 0#2 ∨ s.unspecifyScratch.bitToggle = 3#2 := by
  simp only [State.unspecifyScratch]
  split <;> simp

theorem lookupProfile_cons (k : PartNumber) (P : Profile) (c : Catalog) (pn : PartNumber) :
    lookupProfile ((k, P) :: c) pn = if k = pn then some P else lookupProfile c pn := rfl

/-- What ConfigurationError is: a stop, never a next state. -/
theorem raiseConfigurationError_eq (pn : PartNumber) :
    raiseConfigurationError pn = .fault (.configurationError pn) := rfl

/-! ### The register check and the validator -/

/-- The register check goes to Alternate3 with the word address that matched, or fails to Enabled. -/
theorem registerCheck_next {n : RegNum} {s t : State} (h : registerCheck n s = .next t) :
    ∃ P, s.profile = some P ∧
      ((∃ w, P.alt3.accepts w = true ∧ t = (s.setAlt (bankField P.altShift w)).goto .alternate3) ∨
        t = s.goto .enabled) := by
  obtain ⟨P, hP, h⟩ := onInstance_next h
  refine ⟨P, hP, ?_⟩
  split at h
  · rename_i ha
    rw [execKAlt3, onInstance_some hP] at h
    exact .inl ⟨_, ha, by simpa using h.symm⟩
  · rw [execKFail, onInstance_some hP] at h
    exact .inr (by simpa using h.symm)

/-- The opcode check ends like the register check. -/
theorem opcodeCheck_next {s t : State} {P : Profile} (hP : s.profile = some P)
    (h : opcodeCheck s = .next t) :
    (∃ w, P.alt3.accepts w = true ∧ t = (s.setAlt (bankField P.altShift w)).goto .alternate3) ∨
      t = s.goto .enabled := by
  simp only [opcodeCheck, execCtxA, execCtxB] at h
  split at h
  · obtain ⟨Q, hQ, h⟩ := registerCheck_next h
    cases hP.symm.trans hQ
    exact h
  · split at h
    · obtain ⟨Q, hQ, h⟩ := registerCheck_next h
      cases hP.symm.trans hQ
      exact h
    · rw [execKFail, onInstance_some hP] at h
      exact .inr (by simpa using h.symm)

/-- Everything EN.ALT2 can do: under Introspect the pointer passed and it went to Alternate3, or it
failed to Enabled; under Plain it goes to Alternate2. -/
theorem execEnAlt2_next {a : Nat} {s t : State} (h : execEnAlt2 a s = .next t) :
    ∃ P, s.profile = some P ∧
      ((s.hostArchitectureHint = .introspect ∧ P.alt1.accepts (wordAddress s.view.ip) = true ∧
          ∃ w, P.alt3.accepts w = true ∧
            t = (s.setAlt (bankField P.altShift w)).goto .alternate3) ∨
        (s.hostArchitectureHint = .introspect ∧ t = s.goto .enabled) ∨
        (s.hostArchitectureHint = .plain ∧ t = s.goto .alternate2)) := by
  obtain ⟨P, hP, h⟩ := onInstance_next h
  refine ⟨P, hP, ?_⟩
  split at h
  · rename_i hh
    split at h
    · rename_i ha
      rcases opcodeCheck_next hP h with h | h
      · exact .inl ⟨hh, ha, h⟩
      · exact .inr (.inl ⟨hh, h⟩)
    · rw [execKFail, onInstance_some hP] at h
      exact .inr (.inl ⟨hh, by simpa using h.symm⟩)
  · rename_i hh
    rw [execKAlt2, onInstance_some hP] at h
    exact .inr (.inr ⟨hh, by simpa using h.symm⟩)
  · simp at h

/-! ### The step -/

/-- The step of an ACC on an instance. -/
theorem step_access {s : State} {P : Profile} {a : Nat} {v : View} {rest : List Event}
    (hP : s.profile = some P) (he : s.events = .acc a v :: rest) :
    step s = mapNext (fun t => t.respond a)
      (runRows (decodeAccess (s.mode P) a) ((s.dequeue rest).present v)) := by
  simp only [step, stepEvent, he, handleEvent, handleAccess]
  rw [onInstance_some (P := P) (by simpa using hP)]
  rfl

/-- One step of a run, then the rest of it. -/
theorem core_run_next {k : Nat} {s t : State} (h : step s = .next t) :
    Sys2Proof.core.run (k + 1) s = Sys2Proof.core.run k t := by
  have h' : Sys2Proof.core.step s = Host.Outcome.next t := h
  simp only [Host.Core.run, h']

theorem core_run_fault {k : Nat} {s : State} {e : Fault} (h : step s = .fault e) :
    Sys2Proof.core.run (k + 1) s = .fault e := by
  have h' : Sys2Proof.core.step s = Host.Outcome.fault e := h
  simp only [Host.Core.run, h']

theorem core_run_refused {k : Nat} {s : State} {e : Refusal} (h : step s = .refused e) :
    Sys2Proof.core.run (k + 1) s = .refused e := by
  have h' : Sys2Proof.core.step s = Host.Outcome.refused e := h
  simp only [Host.Core.run, h']

/-- A step takes the oldest presented event. -/
theorem step_next_event {s t : State} (h : step s = .next t) :
    ∃ e rest, s.events = e :: rest ∧ handleEvent e (s.dequeue rest) = .next t := by
  simp only [step, stepEvent] at h
  split at h
  · simp at h
  · exact ⟨_, _, by assumption, h⟩

end Sys2Proof.Machine
end

