-- ==== Sys2Proof/Laws/PerInstr.lean ====
section
/-! SUPPORT. The address zero belongs to ARM alone (42_fsm_global_simple.md R111), one lemma per
instruction: no other well-formed instruction is written as the access of address 0. -/

namespace Sys2Proof.Laws.ZeroAddressIsArm

open Sys2Proof

/-- A well-formed instruction written as the access of address 0 is ARM. -/
def Statement (i : Instr) : Prop :=
  i.wellFormed = true → encode i = .access 0 → i = .arm

theorem of_address {i : Instr} {a : Nat} (hw : (a != 0) = true) (he : Code.access a = .access 0) :
    i = .arm := by
  simp_all

theorem arm : Statement .arm := fun _ _ => rfl

theorem disNop (a : Nat) : Statement (.disNop a) := of_address

theorem enBit1 (a : Nat) : Statement (.enBit1 a) := of_address

theorem enAdd1 (a : Nat) : Statement (.enAdd1 a) := of_address

theorem enAlt1 (a : Nat) : Statement (.enAlt1 a) := of_address

theorem enAlt2 (a : Nat) : Statement (.enAlt2 a) := of_address

theorem enBank (a : Nat) (i : Bank) : Statement (.enBank a i) := of_address

theorem enNop (a : Nat) : Statement (.enNop a) := of_address

theorem a1Alt2 (a : Nat) : Statement (.a1Alt2 a) := of_address

theorem a1Miss (a : Nat) : Statement (.a1Miss a) := of_address

theorem a2Alt3 (a : Nat) : Statement (.a2Alt3 a) := of_address

theorem a2Miss (a : Nat) : Statement (.a2Miss a) := of_address

theorem a3Alt4 (a : Nat) : Statement (.a3Alt4 a) := of_address

theorem a3Wait (a : Nat) : Statement (.a3Wait a) := of_address

theorem b1Bank (a : Nat) : Statement (.b1Bank a) := of_address

theorem b1Wait (a : Nat) : Statement (.b1Wait a) := of_address

theorem b2Clr0 (a : Nat) : Statement (.b2Clr0 a) := of_address

theorem b2Set0 (a : Nat) : Statement (.b2Set0 a) := of_address

theorem b2Clr1 (a : Nat) : Statement (.b2Clr1 a) := of_address

theorem b2Set1 (a : Nat) : Statement (.b2Set1 a) := of_address

theorem b2Esc (a : Nat) : Statement (.b2Esc a) := of_address

theorem b2Wait (a : Nat) : Statement (.b2Wait a) := of_address

theorem b3Bank (a : Nat) : Statement (.b3Bank a) := of_address

theorem b3Wait (a : Nat) : Statement (.b3Wait a) := of_address

theorem ad1Add2 (a : Nat) : Statement (.ad1Add2 a) := of_address

theorem ad1Miss (a : Nat) : Statement (.ad1Miss a) := of_address

theorem ad2Plus1 (a : Nat) : Statement (.ad2Plus1 a) := of_address

theorem ad2Plus2 (a : Nat) : Statement (.ad2Plus2 a) := of_address

theorem ad2Esc (a : Nat) : Statement (.ad2Esc a) := of_address

theorem ad2Wait (a : Nat) : Statement (.ad2Wait a) := of_address

theorem ad3Bank (a : Nat) : Statement (.ad3Bank a) := of_address

theorem ad3Wait (a : Nat) : Statement (.ad3Wait a) := of_address

theorem ctxA (n : RegNum) (u : RegNum) : Statement (.ctxA n u) := fun _ h => nomatch h

theorem ctxB (n : RegNum) (u : RegNum) : Statement (.ctxB n u) := fun _ h => nomatch h

theorem kAlt3 (w : Nat) : Statement (.kAlt3 w) := fun _ h => nomatch h

theorem kAlt2 : Statement .kAlt2 := fun _ h => nomatch h

theorem kFail : Statement .kFail := fun _ h => nomatch h

theorem cfg (pn : PartNumber) : Statement (.cfg pn) := fun _ h => nomatch h

theorem hint (f : HostFamily) : Statement (.hint f) := fun _ h => nomatch h

theorem rst : Statement .rst := fun _ h => nomatch h

theorem peek : Statement .peek := fun _ h => nomatch h

theorem diag : Statement .diag := fun _ h => nomatch h

end Sys2Proof.Laws.ZeroAddressIsArm
end

