-- ==== Sys2Proof/Laws/Step.lean ====
section
/-! SUPPORT. Everything one step can do, said once. -/

namespace Sys2Proof.Machine

/-- What the arm of an address `a` does to the state `s` it is executed on, guards included; the
answer of the access is given afterwards. -/
inductive AccessEffect (P : Profile) (a : Nat) (s : State) : State → Prop where
  | arm : a = 0 → AccessEffect P a s (s.goto .enabled)
  | stay : a ≠ 0 → staysPut P s.protocolState s.bitToggle a = true → AccessEffect P a s s
  | enBit1 : a ≠ 0 → s.protocolState = .enabled → P.startsBitwise a = true →
      AccessEffect P a s (s.goto .bitwise1)
  | enAdd1 : a ≠ 0 → s.protocolState = .enabled → P.startsBitwise a = false →
      P.startsAdditive a = true → AccessEffect P a s (s.goto .additive1)
  | enAlt1 : a ≠ 0 → s.protocolState = .enabled → P.startsBitwise a = false →
      P.startsAdditive a = false → P.alt1.accepts a = true → AccessEffect P a s (s.goto .alternate1)
  | resolvedAlternate3 (w : Nat) : a ≠ 0 → s.protocolState = .enabled → P.passesToAlt2 a = true →
      P.alt2.accepts a = true → s.hostArchitectureHint = .introspect →
      P.alt1.accepts (wordAddress s.view.ip) = true → P.alt3.accepts w = true →
      AccessEffect P a s ((s.setAlt (bankField P.altShift w)).goto .alternate3)
  | resolvedEnabled : a ≠ 0 → s.protocolState = .enabled → P.passesToAlt2 a = true →
      P.alt2.accepts a = true → s.hostArchitectureHint = .introspect →
      AccessEffect P a s (s.goto .enabled)
  | resolvedAlternate2 : a ≠ 0 → s.protocolState = .enabled → P.passesToAlt2 a = true →
      P.alt2.accepts a = true → s.hostArchitectureHint = .plain →
      AccessEffect P a s (s.goto .alternate2)
  | enBank (i : Bank) : a ≠ 0 → s.protocolState = .enabled → P.passesToBank a = true →
      P.bankIndex a = some i → AccessEffect P a s (s.commit i)
  | a1Alt2 : a ≠ 0 → s.protocolState = .alternate1 → P.alt2.accepts a = true →
      AccessEffect P a s (s.goto .alternate2)
  | a1Miss : a ≠ 0 → s.protocolState = .alternate1 → P.alt2.accepts a = false →
      AccessEffect P a s (s.goto .enabled)
  | a2Alt3 : a ≠ 0 → s.protocolState = .alternate2 → P.alt3.accepts a = true →
      AccessEffect P a s ((s.setAlt (bankField P.altShift a)).goto .alternate3)
  | a2Miss : a ≠ 0 → s.protocolState = .alternate2 → P.alt3.accepts a = false →
      AccessEffect P a s (s.goto .enabled)
  | a3Alt4 : a ≠ 0 → s.protocolState = .alternate3 → P.alt4.accepts a = true →
      AccessEffect P a s (s.commit s.pendingAltBank)
  | b1Bank : a ≠ 0 → s.protocolState = .bitwise1 → P.isBankAddress a = true →
      AccessEffect P a s (((s.setBits s.currentBank).setToggle toggleClear).goto .bitwise2)
  | b2Clr0 : a ≠ 0 → s.protocolState = .bitwise2 →
      P.bit2ClearBit0.accepts (toggled s.bitToggle a) = true →
      AccessEffect P a s (s.twiddle clearBit0)
  | b2Set0 : a ≠ 0 → s.protocolState = .bitwise2 →
      P.bit2ClearBit0.accepts (toggled s.bitToggle a) = false →
      P.bit2SetBit0.accepts (toggled s.bitToggle a) = true → AccessEffect P a s (s.twiddle setBit0)
  | b2Clr1 : a ≠ 0 → s.protocolState = .bitwise2 →
      P.bit2ClearBit0.accepts (toggled s.bitToggle a) = false →
      P.bit2SetBit0.accepts (toggled s.bitToggle a) = false →
      P.bit2ClearBit1.accepts (toggled s.bitToggle a) = true →
      AccessEffect P a s (s.twiddle clearBit1)
  | b2Set1 : a ≠ 0 → s.protocolState = .bitwise2 →
      P.bit2ClearBit0.accepts (toggled s.bitToggle a) = false →
      P.bit2SetBit0.accepts (toggled s.bitToggle a) = false →
      P.bit2ClearBit1.accepts (toggled s.bitToggle a) = false →
      P.bit2SetBit1.accepts (toggled s.bitToggle a) = true → AccessEffect P a s (s.twiddle setBit1)
  | b2Esc : a ≠ 0 → s.protocolState = .bitwise2 → P.noTwiddle s.bitToggle a = true →
      P.bit3.accepts a = true → AccessEffect P a s (s.goto .bitwise3)
  | b3Bank : a ≠ 0 → s.protocolState = .bitwise3 → P.isBankAddress a = true →
      AccessEffect P a s (s.commit s.pendingBitBank)
  | ad1Add2 : a ≠ 0 → s.protocolState = .additive1 → P.add2.accepts a = true →
      AccessEffect P a s ((s.setAdd s.currentBank).goto .additive2)
  | ad1Miss : a ≠ 0 → s.protocolState = .additive1 → P.add2.accepts a = false →
      AccessEffect P a s (s.goto .enabled)
  | ad2Add (b : Bank) : a ≠ 0 → s.protocolState = .additive2 → P.add3.accepts a = false →
      b = addedBank P s.pendingAddBank a → AccessEffect P a s (s.setAdd b)
  | ad2Esc (b : Bank) : a ≠ 0 → s.protocolState = .additive2 → P.add3.accepts a = true →
      b = addedBank P s.pendingAddBank a → AccessEffect P a s ((s.setAdd b).goto .additive3)
  | ad3Bank : a ≠ 0 → s.protocolState = .additive3 → P.isBankAddress a = true →
      AccessEffect P a s (s.commit s.pendingAddBank)

section Arms

variable {P : Profile} {a : Nat} {s t : State}

theorem enabled_effect (ha : a ≠ 0) (hP : s.profile = some P) (hs : s.protocolState = .enabled)
    (h : exec (decodeEnabled P a) s = .next t) : AccessEffect P a s t := by
  unfold decodeEnabled at h
  cases h1 : P.startsBitwise a with
  | true =>
    simp only [h1, if_true, exec, execEnBit1, onInstance_some hP, Host.Outcome.next.injEq] at h
    exact h ▸ .enBit1 ha hs h1
  | false =>
  cases h2 : P.startsAdditive a with
  | true =>
    simp only [h1, h2, if_true, if_false, Bool.false_eq_true, exec, execEnAdd1, onInstance_some hP,
      Host.Outcome.next.injEq] at h
    exact h ▸ .enAdd1 ha hs h1 h2
  | false =>
  cases h3 : P.alt1.accepts a with
  | true =>
    simp only [h1, h2, h3, if_true, if_false, Bool.false_eq_true, exec, execEnAlt1,
      onInstance_some hP, Host.Outcome.next.injEq] at h
    exact h ▸ .enAlt1 ha hs h1 h2 h3
  | false =>
  have hp : P.passesToAlt2 a = true := by simp [Profile.passesToAlt2, h1, h2, h3]
  cases h4 : P.alt2.accepts a with
  | true =>
    simp only [h1, h2, h3, h4, if_true, if_false, Bool.false_eq_true, exec] at h
    obtain ⟨Q, hQ, h⟩ := execEnAlt2_next h
    cases hP.symm.trans hQ
    rcases h with ⟨hh, hi, w, hw, rfl⟩ | ⟨hh, rfl⟩ | ⟨hh, rfl⟩
    · exact .resolvedAlternate3 w ha hs hp h4 hh hi hw
    · exact .resolvedEnabled ha hs hp h4 hh
    · exact .resolvedAlternate2 ha hs hp h4 hh
  | false =>
  have hb : P.passesToBank a = true := by simp [Profile.passesToBank, hp, h4]
  cases h5 : P.bankIndex a with
  | some i =>
    simp only [h1, h2, h3, h4, h5, if_false, Bool.false_eq_true, exec, execEnBank,
      onInstance_some hP, Host.Outcome.next.injEq] at h
    exact h ▸ .enBank i ha hs hb h5
  | none =>
    simp only [h1, h2, h3, h4, h5, if_false, Bool.false_eq_true, exec, execEnNop,
      onInstance_some hP, Host.Outcome.next.injEq] at h
    exact h ▸ .stay ha (by simp [hs, staysPut, hb, Profile.isBankAddress, h5])

theorem bitwise2_effect (ha : a ≠ 0) (hP : s.profile = some P) (hs : s.protocolState = .bitwise2)
    (h : exec (decodeBitwise2 P s.bitToggle a) s = .next t) : AccessEffect P a s t := by
  unfold decodeBitwise2 at h
  cases h1 : P.bit2ClearBit0.accepts (toggled s.bitToggle a) with
  | true =>
    simp only [h1, if_true, exec, execB2Clr0, onInstance_some hP, Host.Outcome.next.injEq] at h
    exact h ▸ .b2Clr0 ha hs h1
  | false =>
  cases h2 : P.bit2SetBit0.accepts (toggled s.bitToggle a) with
  | true =>
    simp only [h1, h2, if_true, if_false, Bool.false_eq_true, exec, execB2Set0, onInstance_some hP,
      Host.Outcome.next.injEq] at h
    exact h ▸ .b2Set0 ha hs h1 h2
  | false =>
  cases h3 : P.bit2ClearBit1.accepts (toggled s.bitToggle a) with
  | true =>
    simp only [h1, h2, h3, if_true, if_false, Bool.false_eq_true, exec, execB2Clr1,
      onInstance_some hP, Host.Outcome.next.injEq] at h
    exact h ▸ .b2Clr1 ha hs h1 h2 h3
  | false =>
  cases h4 : P.bit2SetBit1.accepts (toggled s.bitToggle a) with
  | true =>
    simp only [h1, h2, h3, h4, if_true, if_false, Bool.false_eq_true, exec, execB2Set1,
      onInstance_some hP, Host.Outcome.next.injEq] at h
    exact h ▸ .b2Set1 ha hs h1 h2 h3 h4
  | false =>
  have hn : P.noTwiddle s.bitToggle a = true := by simp [Profile.noTwiddle, h1, h2, h3, h4]
  cases h5 : P.bit3.accepts a with
  | true =>
    simp only [h1, h2, h3, h4, h5, if_true, if_false, Bool.false_eq_true, exec, execB2Esc,
      onInstance_some hP, Host.Outcome.next.injEq] at h
    exact h ▸ .b2Esc ha hs hn h5
  | false =>
    simp only [h1, h2, h3, h4, h5, if_false, Bool.false_eq_true, exec, execB2Wait,
      onInstance_some hP, Host.Outcome.next.injEq] at h
    exact h ▸ .stay ha (by simp [hs, staysPut, hn, h5])

theorem additive2_effect (ha : a ≠ 0) (hP : s.profile = some P) (hs : s.protocolState = .additive2)
    (h : runRows (decodeAdditive2 P a) s = .next t) : AccessEffect P a s t := by
  cases h1 : P.addPlus1.accepts a <;> cases h2 : P.addPlus2.accepts a <;>
    cases h3 : P.add3.accepts a <;>
    simp only [decodeAdditive2, h1, h2, h3, runRows, exec, execAd2Plus1, execAd2Plus2, execAd2Esc,
      execAd2Wait, onInstance, hP, State.setAdd_profile, State.setAdd_pendingAddBank,
      Host.Outcome.next.injEq] at h
  · exact h ▸ .stay ha (by simp [hs, staysPut, h1, h2, h3])
  all_goals subst h
  all_goals first
    | exact .ad2Add _ ha hs h3 (by simp [addedBank, h1, h2])
    | exact .ad2Esc _ ha hs h3 (by simp [addedBank, h1, h2])

/-- Everything the arms of one address can do. -/
theorem access_effect {m : Mode} (hP : s.profile = some P) (hm : m = s.mode P)
    (h : runRows (decodeAccess m a) s = .next t) : AccessEffect P a s t := by
  subst hm
  by_cases ha : a = 0
  · simp only [decodeAccess, ha, if_true, runRows_singleton, exec, execArm, onInstance_some hP,
      Host.Outcome.next.injEq] at h
    exact h ▸ .arm ha
  simp only [decodeAccess, ha, if_false, State.mode] at h
  cases hs : s.protocolState <;> simp only [hs, runRows_singleton] at h
  case disabled =>
    simp only [exec, execDisNop, onInstance_some hP, Host.Outcome.next.injEq] at h
    exact h ▸ .stay ha (by simp [hs, staysPut])
  case enabled => exact enabled_effect ha hP hs h
  case bitwise2 => exact bitwise2_effect ha hP hs h
  case additive2 => exact additive2_effect ha hP hs h
  case alternate1 =>
    cases hc : P.alt2.accepts a <;>
      simp only [hc, if_true, if_false, Bool.false_eq_true, exec, execA1Alt2, execA1Miss, onInstance_some hP,
        Host.Outcome.next.injEq] at h
    · exact h ▸ .a1Miss ha hs hc
    · exact h ▸ .a1Alt2 ha hs hc
  case alternate2 =>
    cases hc : P.alt3.accepts a <;>
      simp only [hc, if_true, if_false, Bool.false_eq_true, exec, execA2Alt3, execA2Miss, onInstance_some hP,
        Host.Outcome.next.injEq] at h
    · exact h ▸ .a2Miss ha hs hc
    · exact h ▸ .a2Alt3 ha hs hc
  case alternate3 =>
    cases hc : P.alt4.accepts a <;>
      simp only [hc, if_true, if_false, Bool.false_eq_true, exec, execA3Alt4, execA3Wait, onInstance_some hP,
        Host.Outcome.next.injEq] at h
    · exact h ▸ .stay ha (by simp [hs, staysPut, hc])
    · exact h ▸ .a3Alt4 ha hs hc
  case bitwise1 =>
    cases hc : P.isBankAddress a <;>
      simp only [hc, if_true, if_false, Bool.false_eq_true, exec, execB1Bank, execB1Wait, onInstance_some hP,
        Host.Outcome.next.injEq] at h
    · exact h ▸ .stay ha (by simp [hs, staysPut, hc])
    · exact h ▸ .b1Bank ha hs hc
  case bitwise3 =>
    cases hc : P.isBankAddress a <;>
      simp only [hc, if_true, if_false, Bool.false_eq_true, exec, execB3Bank, execB3Wait, onInstance_some hP,
        Host.Outcome.next.injEq] at h
    · exact h ▸ .stay ha (by simp [hs, staysPut, hc])
    · exact h ▸ .b3Bank ha hs hc
  case additive1 =>
    cases hc : P.add2.accepts a <;>
      simp only [hc, if_true, if_false, Bool.false_eq_true, exec, execAd1Add2, execAd1Miss, onInstance_some hP,
        Host.Outcome.next.injEq] at h
    · exact h ▸ .ad1Miss ha hs hc
    · exact h ▸ .ad1Add2 ha hs hc
  case additive3 =>
    cases hc : P.isBankAddress a <;>
      simp only [hc, if_true, if_false, Bool.false_eq_true, exec, execAd3Bank, execAd3Wait, onInstance_some hP,
        Host.Outcome.next.injEq] at h
    · exact h ▸ .stay ha (by simp [hs, staysPut, hc])
    · exact h ▸ .ad3Bank ha hs hc

end Arms

/-- Everything one step can do when it does not stop. -/
inductive StepEffect (s : State) : State → Prop where
  | acc (a : Nat) (v : View) (rest : List Event) (P : Profile) (u : State) :
      s.events = .acc a v :: rest → s.profile = some P →
      AccessEffect P a ((s.dequeue rest).present v) u → StepEffect s (u.respond a)
  | cfg (pn : PartNumber) (rest : List Event) (P : Profile) :
      s.events = .cfg pn :: rest → s.profile = none → lookupProfile s.catalog pn = some P →
      StepEffect s (((s.dequeue rest).create P).answer none)
  | hint (f : HostFamily) (rest : List Event) (P : Profile) :
      s.events = .hint f :: rest → s.profile = some P →
      s.hostArchitectureHint = .unknown → s.accessed = false →
      StepEffect s (((s.dequeue rest).setHint f.hint).answer none)
  | rst (rest : List Event) (P : Profile) : s.events = .rst :: rest → s.profile = some P →
      StepEffect s (((s.dequeue rest).initialise P).answer none)
  | peek (rest : List Event) (P : Profile) : s.events = .peek :: rest → s.profile = some P →
      StepEffect s ((s.dequeue rest).answer (some s.currentBank))
  | diag (rest : List Event) (P : Profile) : s.events = .diag :: rest → s.profile = some P →
      StepEffect s (s.dequeue rest).forward

theorem step_effect {s t : State} (h : step s = .next t) : StepEffect s t := by
  obtain ⟨e, rest, he, h⟩ := step_next_event h
  cases e with
  | acc a v =>
    obtain ⟨P, hP, h⟩ := onInstance_next h
    obtain ⟨u, hu, rfl⟩ := mapNext_eq_next h
    exact .acc a v rest P u he hP (access_effect (m := (s.dequeue rest).mode P) hP rfl hu)
  | cfg pn =>
    simp only [handleEvent, exec, execCfg] at h
    split at h
    · simp at h
    · rename_i hn
      split at h
      · rename_i P hl
        cases h
        exact .cfg pn rest P he hn hl
      · simp [raiseConfigurationError] at h
  | hint f =>
    obtain ⟨P, hP, h⟩ := onInstance_next h
    split_ifs at h with h1 h2
    cases h
    exact .hint f rest P he hP (by simpa using h1) (by simpa using h2)
  | rst =>
    obtain ⟨P, hP, h⟩ := onInstance_next h
    cases h
    exact .rst rest P he hP
  | peek =>
    obtain ⟨P, hP, h⟩ := onInstance_next h
    cases h
    exact .peek rest P he hP
  | diag =>
    obtain ⟨P, hP, h⟩ := onInstance_next h
    cases h
    exact .diag rest P he hP

end Sys2Proof.Machine
end

