-- ==== Sys2Proof/Tests/Slice0.lean ====
section
/-! SUPPORT. The model's own tests. Expected values are from 95_test_vectors.md and the worked examples
of the rules; each test names its source. The fixtures are the ones of section L0. -/

namespace Sys2Proof.Tests

open Sys2Proof Sys2Proof.Machine

/-! ### The fixtures (95_test_vectors.md L0) -/

/-- FIX-A: the source's fragment, completed. -/
def fixA : Profile :=
  { startingBank := 3
    bankAddress0 := 0x80, bankAddress1 := 0x90, bankAddress2 := 0xA0, bankAddress3 := 0xB0
    alt1 := .pattern 0x1FFF 0x1DFE, alt2 := .pattern 0x1FFF 0x1DFF
    alt3 := .pattern 0x1FFC 0x1B5C, alt4 := .pattern 0x1FCF 0x0080, altShift := 0
    supportsBitwise := true, bit1 := .pattern 0x1FF0 0x1540
    bit2ClearBit0 := .pattern 0x1FF3 0x1540, bit2SetBit0 := .pattern 0x1FF3 0x1541
    bit2ClearBit1 := .pattern 0x1FF3 0x1542, bit2SetBit1 := .pattern 0x1FF3 0x1543
    bit3 := .pattern 0x1FF8 0x1550
    supportsAdditive := false
    add1 := .absent, add2 := .absent, addPlus1 := .absent, addPlus2 := .absent, add3 := .absent }

/-- FIX-B: additive, and a bank field at bit 2. -/
def fixB : Profile :=
  { startingBank := 0
    bankAddress0 := 0x40, bankAddress1 := 0x50, bankAddress2 := 0x60, bankAddress3 := 0x70
    alt1 := .pattern 0x007F 0x0055, alt2 := .pattern 0x3FFF 0x30D0
    alt3 := .pattern 0x3FF3 0x0D10, alt4 := .pattern 0x3FCF 0x0040, altShift := 2
    supportsBitwise := false, bit1 := .absent
    bit2ClearBit0 := .absent, bit2SetBit0 := .absent, bit2ClearBit1 := .absent
    bit2SetBit1 := .absent, bit3 := .absent
    supportsAdditive := true, add1 := .pattern 0x3FFF 0x34C0, add2 := .pattern 0x3FFF 0x0D40
    addPlus1 := .pattern 0x3FF9 0x0E01, addPlus2 := .pattern 0x3FFA 0x0E02
    add3 := .pattern 0x3FFC 0x0E04 }

/-- FIX-C: `alt1` unknown, no bitwise and no additive mode. -/
def fixC : Profile :=
  { startingBank := 1
    bankAddress0 := 0x10, bankAddress1 := 0x20, bankAddress2 := 0x30, bankAddress3 := 0x40
    alt1 := .absent, alt2 := .pattern 0xFF 0xA5
    alt3 := .pattern 0xFC 0x5C, alt4 := .pattern 0xFF 0x77, altShift := 0
    supportsBitwise := false, bit1 := .absent
    bit2ClearBit0 := .absent, bit2SetBit0 := .absent, bit2ClearBit1 := .absent
    bit2SetBit1 := .absent, bit3 := .absent
    supportsAdditive := false
    add1 := .absent, add2 := .absent, addPlus1 := .absent, addPlus2 := .absent, add3 := .absent }

/-- FIX-D: overlapping patterns and a duplicate bank address, for the tie-breaks. -/
def fixD : Profile :=
  { startingBank := 0
    bankAddress0 := 0x11, bankAddress1 := 0x22, bankAddress2 := 0x22, bankAddress3 := 0x44
    alt1 := .pattern 0xFF 0x33, alt2 := .pattern 0xFF 0x44
    alt3 := .pattern 0xF3 0x50, alt4 := .pattern 0xFF 0x66, altShift := 2
    supportsBitwise := true, bit1 := .pattern 0xF0 0x10
    bit2ClearBit0 := .pattern 0xFF 0x70, bit2SetBit0 := .pattern 0xFF 0x71
    bit2ClearBit1 := .pattern 0xFF 0x72, bit2SetBit1 := .pattern 0xFF 0x73
    bit3 := .pattern 0xFC 0x70
    supportsAdditive := true, add1 := .pattern 0xFF 0x12, add2 := .pattern 0xFF 0x13
    addPlus1 := .pattern 0xF1 0x81, addPlus2 := .pattern 0xF2 0x82, add3 := .pattern 0xF4 0x84 }

/-- An instance of `P` in state `p` with bank `b`, hint Plain, and no event. -/
def inst (P : Profile) (p : ProtocolState) (b : Bank) : State :=
  { State.reset with
    profile := some P, protocolState := p, currentBank := b, hostArchitectureHint := .plain,
    accessed := true }

/-- An instance of `P` right after set-up with hint `h`, with bank `b` and the events `es` presented. -/
def loaded (P : Profile) (h : Hint) (b : Bank) (es : List Event) : State :=
  { inst P .disabled b with hostArchitectureHint := h, accessed := false, events := es }

/-- An instance of `P` in state `p` with one access presented. -/
def onAcc (P : Profile) (p : ProtocolState) (b : Bank) (a : Nat) : State :=
  { inst P p b with events := accesses [a] }

/-- A view with an instruction pointer, one word on the bus, and every register at `r`. -/
def viewOf (ip : Nat) (op : HostWord) (r : Nat) : View :=
  { ip := ip, memory := Memory.zero.write ip op, r0 := 0, r1 := r, r2 := 0, r3 := 0, r4 := 0, r5 := 0,
    r6 := 0, r7 := 0 }

/-- The state, the bank and the returned value of an outcome. -/
def seen (r : Result) : Option (ProtocolState × Bank × Option Bank) :=
  match r with
  | .next s => some (s.protocolState, s.currentBank, s.result)
  | _ => none

/-- The scratch registers of an outcome: pendingAltBank, pendingBitBank, bitToggle, pendingAddBank. -/
def scratch (r : Result) : Option (Bank × Bank × Bank × Bank) :=
  match r with
  | .next s => some (s.pendingAltBank, s.pendingBitBank, s.bitToggle, s.pendingAddBank)
  | _ => none

/-- The hint of an outcome. -/
def hintOf (r : Result) : Option Hint :=
  match r with
  | .next s => some s.hostArchitectureHint
  | _ => none

/-- The snapshots an outcome has forwarded. -/
def sinkOf (r : Result) : Option (List Snapshot) :=
  match r with
  | .next s => some s.sink
  | _ => none

/-- Why an outcome stopped. -/
def stop (r : Result) : Option (Fault ⊕ Refusal) :=
  match r with
  | .next _ => none
  | .fault e => some (.inl e)
  | .refused e => some (.inr e)

/-- The mode of a state of a profile with toggle `t` and hint `h`. -/
def modeOf (P : Profile) (p : ProtocolState) (t : Bank) (h : Hint) : Mode :=
  { profile := P, protocolState := p, bitToggle := t, hint := h }

/-! ### Well-formedness: an ill-formed term for each check -/

theorem test_zero_address_is_ill_formed_enabled :
    Instr.wellFormed (.disNop 0) = false ∧ Instr.wellFormed (.enBit1 0) = false ∧
    Instr.wellFormed (.enAdd1 0) = false ∧ Instr.wellFormed (.enAlt1 0) = false ∧
    Instr.wellFormed (.enAlt2 0) = false ∧ Instr.wellFormed (.enBank 0 1) = false ∧
    Instr.wellFormed (.enNop 0) = false := by decide

theorem test_zero_address_is_ill_formed_alternate :
    Instr.wellFormed (.a1Alt2 0) = false ∧ Instr.wellFormed (.a1Miss 0) = false ∧
    Instr.wellFormed (.a2Alt3 0) = false ∧ Instr.wellFormed (.a2Miss 0) = false ∧
    Instr.wellFormed (.a3Alt4 0) = false ∧ Instr.wellFormed (.a3Wait 0) = false := by decide

theorem test_zero_address_is_ill_formed_bitwise :
    Instr.wellFormed (.b1Bank 0) = false ∧ Instr.wellFormed (.b1Wait 0) = false ∧
    Instr.wellFormed (.b2Clr0 0) = false ∧ Instr.wellFormed (.b2Set0 0) = false ∧
    Instr.wellFormed (.b2Clr1 0) = false ∧ Instr.wellFormed (.b2Set1 0) = false ∧
    Instr.wellFormed (.b2Esc 0) = false ∧ Instr.wellFormed (.b2Wait 0) = false ∧
    Instr.wellFormed (.b3Bank 0) = false ∧ Instr.wellFormed (.b3Wait 0) = false := by decide

theorem test_zero_address_is_ill_formed_additive :
    Instr.wellFormed (.ad1Add2 0) = false ∧ Instr.wellFormed (.ad1Miss 0) = false ∧
    Instr.wellFormed (.ad2Plus1 0) = false ∧ Instr.wellFormed (.ad2Plus2 0) = false ∧
    Instr.wellFormed (.ad2Esc 0) = false ∧ Instr.wellFormed (.ad2Wait 0) = false ∧
    Instr.wellFormed (.ad3Bank 0) = false ∧ Instr.wellFormed (.ad3Wait 0) = false := by decide

/-- 10_state.md R29: a missing capability goes with absent patterns. -/
theorem test_inconsistent_profiles_refused :
    Profile.capabilitiesConsistent { fixA with supportsBitwise := false } = false ∧
    Profile.capabilitiesConsistent { fixB with supportsAdditive := false } = false ∧
    fixA.capabilitiesConsistent = true ∧ fixB.capabilitiesConsistent = true ∧
    fixD.capabilitiesConsistent = true := by decide

/-! ### Decoding: a word of every constructor, by the table of 30_encoding.md R71 -/

/-- L2.2: the arming address in any state, DIS.NOP (S4), EN.BIT1 (S7), EN.ADD1 (S8), EN.ALT1 (S9),
EN.ALT2 (S10), EN.BANK (S3), EN.NOP (S12). -/
theorem test_decode_enabled :
    decode (modeOf fixA .bitwise2 3 .plain) (.access 0x0000) = .rows [.arm] ∧
    decode (modeOf fixA .disabled 0 .plain) (.access 0x0090) = .rows [.disNop 0x0090] ∧
    decode (modeOf fixA .enabled 0 .plain) (.access 0x1545) = .rows [.enBit1 0x1545] ∧
    decode (modeOf fixB .enabled 0 .plain) (.access 0x34C0) = .rows [.enAdd1 0x34C0] ∧
    decode (modeOf fixB .enabled 0 .plain) (.access 0x00D5) = .rows [.enAlt1 0x00D5] ∧
    decode (modeOf fixA .enabled 0 .plain) (.access 0x1DFF) = .rows [.enAlt2 0x1DFF] ∧
    decode (modeOf fixA .enabled 0 .plain) (.access 0x00A0) = .rows [.enBank 0x00A0 2] ∧
    decode (modeOf fixA .enabled 0 .plain) (.access 0x2090) = .rows [.enNop 0x2090] := by decide

/-- L2.8: T1 (least index of a duplicate), T2 (bit1 before a bank address), T3 (bit1 before add1),
T4 (alt2 before a bank address). -/
theorem test_decode_tie_breaks :
    decode (modeOf fixD .enabled 0 .plain) (.access 0x22) = .rows [.enBank 0x22 1] ∧
    decode (modeOf fixD .enabled 0 .plain) (.access 0x11) = .rows [.enBit1 0x11] ∧
    decode (modeOf fixD .enabled 0 .plain) (.access 0x12) = .rows [.enBit1 0x12] ∧
    decode (modeOf fixD .enabled 0 .plain) (.access 0x44) = .rows [.enAlt2 0x44] := by decide

/-- L2.3: A1, A7, A3, A4. -/
theorem test_decode_alternate :
    decode (modeOf fixA .alternate1 0 .plain) (.access 0x1DFF) = .rows [.a1Alt2 0x1DFF] ∧
    decode (modeOf fixA .alternate1 0 .plain) (.access 0x0090) = .rows [.a1Miss 0x0090] ∧
    decode (modeOf fixA .alternate2 0 .plain) (.access 0x1B5E) = .rows [.a2Alt3 0x1B5E] ∧
    decode (modeOf fixA .alternate2 0 .plain) (.access 0x1234) = .rows [.a2Miss 0x1234] ∧
    decode (modeOf fixA .alternate3 0 .plain) (.access 0x0090) = .rows [.a3Alt4 0x0090] ∧
    decode (modeOf fixA .alternate3 0 .plain) (.access 0x0555) = .rows [.a3Wait 0x0555] := by decide

/-- L2.4: B4, the table of single twiddles, B2, B8; and T2 of L2.8 (a twiddle before the escape). -/
theorem test_decode_bitwise :
    decode (modeOf fixA .bitwise1 0 .plain) (.access 0x0090) = .rows [.b1Bank 0x0090] ∧
    decode (modeOf fixA .bitwise1 0 .plain) (.access 0x1540) = .rows [.b1Wait 0x1540] ∧
    decode (modeOf fixA .bitwise2 3 .plain) (.access 0x1543) = .rows [.b2Clr0 0x1543] ∧
    decode (modeOf fixA .bitwise2 3 .plain) (.access 0x1542) = .rows [.b2Set0 0x1542] ∧
    decode (modeOf fixA .bitwise2 3 .plain) (.access 0x1541) = .rows [.b2Clr1 0x1541] ∧
    decode (modeOf fixA .bitwise2 0 .plain) (.access 0x1543) = .rows [.b2Set1 0x1543] ∧
    decode (modeOf fixA .bitwise2 3 .plain) (.access 0x1550) = .rows [.b2Esc 0x1550] ∧
    decode (modeOf fixA .bitwise2 3 .plain) (.access 0x1558) = .rows [.b2Wait 0x1558] ∧
    decode (modeOf fixD .bitwise2 0 .plain) (.access 0x70) = .rows [.b2Clr0 0x70] ∧
    decode (modeOf fixA .bitwise3 0 .plain) (.access 0x00B0) = .rows [.b3Bank 0x00B0] ∧
    decode (modeOf fixA .bitwise3 0 .plain) (.access 0x1541) = .rows [.b3Wait 0x1541] := by decide

/-- L2.5: D1, D4, the table of eight combinations, D3, D8. -/
theorem test_decode_additive :
    decode (modeOf fixB .additive1 0 .plain) (.access 0x0D40) = .rows [.ad1Add2 0x0D40] ∧
    decode (modeOf fixB .additive1 0 .plain) (.access 0x1234) = .rows [.ad1Miss 0x1234] ∧
    decode (modeOf fixB .additive2 0 .plain) (.access 0x0E01) = .rows [.ad2Plus1 0x0E01] ∧
    decode (modeOf fixB .additive2 0 .plain) (.access 0x0E02) = .rows [.ad2Plus2 0x0E02] ∧
    decode (modeOf fixB .additive2 0 .plain) (.access 0x0E04) = .rows [.ad2Esc 0x0E04] ∧
    decode (modeOf fixB .additive2 0 .plain) (.access 0x0E07) =
      .rows [.ad2Plus1 0x0E07, .ad2Plus2 0x0E07, .ad2Esc 0x0E07] ∧
    decode (modeOf fixB .additive2 0 .plain) (.access 0x0E09) = .rows [.ad2Wait 0x0E09] ∧
    decode (modeOf fixB .additive3 0 .plain) (.access 0x0040) = .rows [.ad3Bank 0x0040] ∧
    decode (modeOf fixB .additive3 0 .plain) (.access 0x0E03) = .rows [.ad3Wait 0x0E03] := by decide

/-- L2.6 and 30_encoding.md R66: 0011 nnn 010 010 uuu and 1011 nnn 101 001 uuu, the second program of
L3 with the second form (0xB348), and a word that is neither. -/
theorem test_decode_host_forms :
    decodeHostOp 0b0011111010010111 = some (.ctxA 7 7) ∧
    decodeHostOp 0b0011001010010000 = some (.ctxA 1 0) ∧
    decodeHostOp 0xB348 = some (.ctxB 1 0) ∧
    decodeHostOp 0b1011000101001011 = some (.ctxB 0 3) ∧
    decodeHostOp 0b0011001010011000 = none ∧
    decodeHostOp 0b1011001010010000 = none := by decide

/-- 46_cpu_context.md R176 to R178, and the events of 30_encoding.md R60. -/
theorem test_decode_outcomes_and_events :
    decode (modeOf fixB .enabled 0 .introspect) (.outcome (.alternate3 0x0D1C)) =
      .rows [.kAlt3 0x0D1C] ∧
    decode (modeOf fixB .enabled 0 .introspect) (.outcome (.alternate3 0x0D1A)) =
      .rejected .outcomeNotPossible ∧
    decode (modeOf fixB .enabled 0 .plain) (.outcome .alternate2) = .rows [.kAlt2] ∧
    decode (modeOf fixB .enabled 0 .introspect) (.outcome .enabled) = .rows [.kFail] ∧
    decode (modeOf fixB .enabled 0 .plain) (.cfg 7) = .rows [.cfg 7] ∧
    decode (modeOf fixB .enabled 0 .plain) (.hint .introspect) = .rows [.hint .introspect] ∧
    decode (modeOf fixB .enabled 0 .plain) .rst = .rows [.rst] ∧
    decode (modeOf fixB .enabled 0 .plain) .peek = .rows [.peek] ∧
    decode (modeOf fixB .enabled 0 .plain) .diag = .rows [.diag] := by decide

/-- The words of the table rows that have numbers for bits (30_encoding.md R77). -/
theorem test_decode_table_words :
    decodeTableWord 16 0x3090 = some (.ctxA 0 0) ∧ decodeTableWord 16 0xB148 = some (.ctxB 0 0) ∧
    decodeTableWord 16 0x0000 = some .arm ∧ decodeTableWord 16 0x1234 = none := by decide

/-! ### One step of every instruction -/

/-- R111's worked example. -/
theorem test_arm : seen (step (onAcc fixA .alternate3 3 0x0000)) = some (.enabled, 3, some 3) := by
  decide

/-- S4. -/
theorem test_disNop : seen (step (onAcc fixA .disabled 3 0x0090)) = some (.disabled, 3, some 3) := by
  decide

/-- S7. -/
theorem test_enBit1 : seen (step (onAcc fixA .enabled 3 0x1545)) = some (.bitwise1, 3, some 3) := by
  decide

/-- S8. -/
theorem test_enAdd1 : seen (step (onAcc fixB .enabled 0 0x34C0)) = some (.additive1, 0, some 0) := by
  decide

/-- S9. -/
theorem test_enAlt1 : seen (step (onAcc fixB .enabled 0 0x00D5)) = some (.alternate1, 0, some 0) := by
  decide

/-- S10: EN.ALT2 under Plain, by K.ALT2. -/
theorem test_enAlt2_plain :
    seen (step (onAcc fixA .enabled 3 0x1DFF)) = some (.alternate2, 3, some 3) := by decide

/-- S1, the source's own example. -/
theorem test_enBank : seen (step (onAcc fixA .enabled 3 0x0090)) = some (.disabled, 1, some 1) := by
  decide

/-- S12. -/
theorem test_enNop : seen (step (onAcc fixA .enabled 3 0x0190)) = some (.enabled, 3, some 3) := by
  decide

/-- A1. -/
theorem test_a1Alt2 : seen (step (onAcc fixA .alternate1 3 0x1DFF)) = some (.alternate2, 3, some 3) := by
  decide

/-- A7. -/
theorem test_a1Miss : seen (step (onAcc fixA .alternate1 3 0x0090)) = some (.enabled, 3, some 3) := by
  decide

/-- A9: bits [3:2] of 0x0D18 are 2. -/
theorem test_a2Alt3 :
    seen (step (onAcc fixB .alternate2 0 0x0D18)) = some (.alternate3, 0, some 0) ∧
    scratch (step (onAcc fixB .alternate2 0 0x0D18)) = some (2, 0, 0, 0) := by decide

/-- A3. -/
theorem test_a2Miss : seen (step (onAcc fixA .alternate2 3 0x1234)) = some (.enabled, 3, some 3) := by
  decide

/-- A1: the alt4 access 0x0090 commits the pending bank 2, not index 1. -/
theorem test_a3Alt4 :
    seen (step { onAcc fixA .alternate3 3 0x0090 with pendingAltBank := 2 }) =
      some (.disabled, 2, some 2) := by decide

/-- A8: a second alt3 address does not capture again. -/
theorem test_a3Wait :
    scratch (step { onAcc fixA .alternate3 3 0x1B5D with pendingAltBank := 2 }) =
      some (2, 0, 0, 0) := by decide

/-- B2: seed 3, whatever the index of 0x00A0; the toggle is cleared. -/
theorem test_b1Bank :
    seen (step (onAcc fixA .bitwise1 3 0x00A0)) = some (.bitwise2, 3, some 3) ∧
    scratch (step { onAcc fixA .bitwise1 3 0x00A0 with bitToggle := 3 }) = some (0, 3, 0, 0) := by
  decide

/-- B4. -/
theorem test_b1Wait : seen (step (onAcc fixA .bitwise1 3 0x1540)) = some (.bitwise1, 3, some 3) := by
  decide

/-- The table of single twiddles: toggle 0, 0x1540, pending 3. -/
theorem test_b2Clr0 :
    scratch (step { onAcc fixA .bitwise2 3 0x1540 with pendingBitBank := 3 }) =
      some (0, 2, 3, 0) := by decide

/-- The table of single twiddles: toggle 3, 0x1542, pending 2. -/
theorem test_b2Set0 :
    scratch (step { onAcc fixA .bitwise2 3 0x1542 with pendingBitBank := 2, bitToggle := 3 }) =
      some (0, 3, 0, 0) := by decide

/-- The table of single twiddles: toggle 3, 0x1541, pending 3. -/
theorem test_b2Clr1 :
    scratch (step { onAcc fixA .bitwise2 3 0x1541 with pendingBitBank := 3, bitToggle := 3 }) =
      some (0, 1, 0, 0) := by decide

/-- B6: a twiddle that changes nothing still flips the toggle. -/
theorem test_b2Set1 :
    scratch (step { onAcc fixA .bitwise2 3 0x1543 with pendingBitBank := 3 }) =
      some (0, 3, 3, 0) := by decide

/-- B2: the escape is compared on the raw address. -/
theorem test_b2Esc :
    seen (step { onAcc fixA .bitwise2 3 0x1550 with bitToggle := 3 }) =
      some (.bitwise3, 3, some 3) := by decide

/-- B2: an ignored access keeps the toggle. -/
theorem test_b2Wait :
    scratch (step { onAcc fixA .bitwise2 3 0x1558 with pendingBitBank := 2, bitToggle := 3 }) =
      some (0, 2, 3, 0) := by decide

/-- B4: the pending bank 3 is committed, not index 2. -/
theorem test_b3Bank :
    seen (step { onAcc fixA .bitwise3 0 0x00A0 with pendingBitBank := 3 }) =
      some (.disabled, 3, some 3) := by decide

/-- B8. -/
theorem test_b3Wait : seen (step (onAcc fixA .bitwise3 3 0x1540)) = some (.bitwise3, 3, some 3) := by
  decide

/-- D6: the seed is the current bank 2. -/
theorem test_ad1Add2 :
    seen (step (onAcc fixB .additive1 2 0x0D40)) = some (.additive2, 2, some 2) ∧
    scratch (step (onAcc fixB .additive1 2 0x0D40)) = some (0, 0, 0, 2) := by decide

/-- D4. -/
theorem test_ad1Miss : seen (step (onAcc fixB .additive1 0 0x1234)) = some (.enabled, 0, some 0) := by
  decide

/-- The table of eight combinations: 0x0E01 from 3. -/
theorem test_ad2Plus1 :
    scratch (step { onAcc fixB .additive2 0 0x0E01 with pendingAddBank := 3 }) =
      some (0, 0, 0, 0) := by decide

/-- The table of eight combinations: 0x0E02 from 3; and all three parts at once, 0x0E07 from 2. -/
theorem test_ad2Plus2 :
    scratch (step { onAcc fixB .additive2 0 0x0E02 with pendingAddBank := 3 }) =
      some (0, 0, 0, 1) ∧
    scratch (step { onAcc fixB .additive2 0 0x0E07 with pendingAddBank := 2 }) =
      some (0, 0, 0, 1) := by decide

/-- The table of eight combinations: 0x0E04. -/
theorem test_ad2Esc :
    seen (step (onAcc fixB .additive2 0 0x0E04)) = some (.additive3, 0, some 0) := by decide

/-- D5. -/
theorem test_ad2Wait :
    scratch (step { onAcc fixB .additive2 0 0x0E0B with pendingAddBank := 1 }) =
      some (0, 0, 0, 1) := by decide

/-- D1: the pending bank 3 is committed, not index 1. -/
theorem test_ad3Bank :
    seen (step { onAcc fixB .additive3 0 0x0050 with pendingAddBank := 3 }) =
      some (.disabled, 3, some 3) := by decide

/-- D3. -/
theorem test_ad3Wait : seen (step (onAcc fixB .additive3 0 0x1234)) = some (.additive3, 0, some 0) := by
  decide

/-- An instance of FIX-B, Enabled, hint Introspect, with the alt2 access 0x30D0 and its view. -/
def onAltK (v : View) : State :=
  { inst fixB .enabled 0 with hostArchitectureHint := .introspect, events := [.acc 0x30D0 v] }

/-- P6: the second form, register 1 = 0x1A38: EN.ALT2, CTX.B, K.ALT3 with bank 3. -/
theorem test_enAlt2_introspect :
    seen (step (onAltK (viewOf 0x0100AA 0xB348 0x1A38))) = some (.alternate3, 0, some 0) ∧
    scratch (step (onAltK (viewOf 0x0100AA 0xB348 0x1A38))) = some (3, 0, 0, 0) := by decide

/-- P5: the first form, register 1 = 0x1A34, whose word address does not match alt3: CTX.A, K.FAIL. -/
theorem test_ctxA :
    seen (exec (.ctxA 1 0) { inst fixB .enabled 0 with view := viewOf 0x0100AA 0x3290 0x1A34 }) =
      some (.enabled, 0, none) := by decide

/-- P6. -/
theorem test_ctxB :
    seen (exec (.ctxB 1 0) { inst fixB .enabled 0 with view := viewOf 0x0100AA 0xB348 0x1A38 }) =
      some (.alternate3, 0, none) := by decide

/-- P6: (0x0D1C >> 2) & 3 = 3. -/
theorem test_kAlt3 : scratch (exec (.kAlt3 0x0D1C) (inst fixB .enabled 0)) = some (3, 0, 0, 0) := by
  decide

/-- R178. -/
theorem test_kAlt2 : seen (exec .kAlt2 (inst fixB .enabled 0)) = some (.alternate2, 0, none) := by
  decide

/-- P5: a word at a pointer that alt1 does not accept, and one that is neither form. -/
theorem test_kFail :
    seen (step (onAltK (viewOf 0x0100A8 0xB348 0x1A38))) = some (.enabled, 0, some 0) ∧
    seen (step (onAltK (viewOf 0x0100AA 0xB340 0x1A38))) = some (.enabled, 0, some 0) := by decide

/-- Before CFG, with FIX-A in the catalogue. -/
def unconfigured (es : List Event) : State :=
  { State.reset with catalog := [(1, fixA)], events := es }

/-- CFG FIX-A: Disabled at starting bank 3 (the start of S1). -/
theorem test_cfg : seen (step (unconfigured [.cfg 1])) = some (.disabled, 3, none) := by decide

/-- Y5: a part number the catalogue does not define. -/
theorem test_cfg_unknown_part :
    stop (step (unconfigured [.cfg 5])) = some (.inl (.configurationError 5)) := by decide

/-- An instance right after CFG. -/
def fresh (es : List Event) : State :=
  { inst fixA .disabled 3 with hostArchitectureHint := .unknown, accessed := false, events := es }

/-- Y6: HINT changes neither the state nor the bank. -/
theorem test_hint :
    seen (step (fresh [.hint .introspect])) = some (.disabled, 3, none) ∧
    hintOf (step (fresh [.hint .introspect])) = some .introspect := by decide

/-- Y3: RST in Bitwise2 cancels the sequence. -/
theorem test_rst :
    seen (step { inst fixA .bitwise2 1 with pendingBitBank := 0, events := [.rst] }) =
      some (.disabled, 3, none) := by decide

/-- Y3: PEEK in Bitwise2 returns the committed bank 3, not the pending 1. -/
theorem test_peek :
    seen (step { inst fixA .bitwise2 3 with pendingBitBank := 1, events := [.peek] }) =
      some (.bitwise2, 3, some 3) := by decide

/-- 47_system_ops.md R194: the snapshot goes out, and nothing comes back. -/
theorem test_diag :
    sinkOf (step { inst fixA .disabled 1 with
      lastAccess := some ⟨0x0090, 1, .disabled⟩, events := [.diag] }) =
      some [⟨0x0090, 1, .disabled⟩] := by decide

/-- The stops: 46_cpu_context.md R179, 47_system_ops.md R193 with U4 (a second HINT of either value), 41_profile_repository.md R101,
60_exceptions.md R201, R213. -/
theorem test_stops :
    stop (step { inst fixA .enabled 3 with
      hostArchitectureHint := .unknown, events := accesses [0x1DFF] }) =
      some (.inr .hintUnknown) ∧
    stop (step (loaded fixA .plain 3 [.hint .introspect])) = some (.inr .hintAlreadySet) ∧
    stop (step (loaded fixA .plain 3 [.hint .plain])) = some (.inr .hintAlreadySet) ∧
    stop (step { inst fixA .enabled 3 with
      hostArchitectureHint := .unknown, events := [.hint .plain] }) =
      some (.inr .hintAfterAccess) ∧
    stop (step { inst fixA .enabled 3 with events := [.cfg 1] }) = some (.inr .reconfiguration) ∧
    stop (step (unconfigured [.peek])) = some (.inr .noInstance) ∧
    stop (step (unconfigured [])) = some (.inr .noEvent) := by decide

/-! ### The first step after reset, with an instruction placed -/

/-- The placed word of ARM, of CTX.A with register 0 and of CTX.B with register 0: the next step runs
it (CTX.A and CTX.B then go to Alternate3, because every register reads 0 and `fetchProfile`
accepts the word address 0). -/
theorem test_withFetchWord :
    seen (step (State.reset.withFetchWord 16 0x0000)) = some (.enabled, 0, some 0) ∧
    seen (step (State.reset.withFetchWord 16 0x3090)) = some (.alternate3, 0, some 0) ∧
    seen (step (State.reset.withFetchWord 16 0xB148)) = some (.alternate3, 0, some 0) ∧
    seen (step (State.reset.withFetchWord 16 0x1234)) = some (.enabled, 0, some 0) := by decide

/-! ### Witnesses: a concrete state and operands that meet all hypotheses of each statement -/

/-- The state in which EN.ALT2 is executed: FIX-B, hint Introspect, the view latched. -/
def introspecting (v : View) : State := (onAltK v).present v

/-- The hypotheses of a statement about an access of `a` in state `p` of an instance of `P`. -/
abbrev AccessAt (s : State) (P : Profile) (p : ProtocolState) (a : Nat) : Prop :=
  s.profile = some P ∧ s.protocolState = p ∧ a ≠ 0 ∧ s.events = [.acc a View.zero]

/-- An instance, which every statement about exec asks for: ZeroAddressArmsFromAnyState,
DisabledIgnoresNonzeroAddresses, EnabledRowsResults, BitwiseTwoRowsResults, AdditiveTwoPartsResults,
ValidatorOutcomesResults, AcceptedFormsRunRegisterCheck, RstRestoresStartingBank,
PeekReturnsCommittedBank, LiveInstanceIsNotReconfigured. -/
theorem witness_instance : (inst fixA .enabled 3).profile = some fixA := by decide

theorem witness_BankFieldIsTwoShiftedBits : 3 < 2 ^ 2 ∧ 2 ≤ 2 := by decide

theorem witness_EncodedInstructionDecodesBack :
    Instr.wellFormed (.ad2Esc 0x0E07) = true ∧
    Instr.selected (modeOf fixB .additive2 0 .plain) (.ad2Esc 0x0E07) = true ∧
    Instr.wellFormed (.b2Set0 0x1542) = true ∧
    Instr.selected (modeOf fixA .bitwise2 3 .plain) (.b2Set0 0x1542) = true ∧
    (modeOf fixA .bitwise2 3 .plain).protocolState ≠ .additive2 := by decide

theorem witness_DecodesExactlyWhenEncodedAndSelected :
    encode (.enBank 0x22 1) = .access 0x22 ∧
    Instr.selected (modeOf fixD .enabled 0 .plain) (.enBank 0x22 1) = true ∧
    Instr.selected (modeOf fixD .enabled 0 .plain) (.enBank 0x22 2) = false := by decide

theorem witness_StepRunsTheDecodedInstruction :
    (onAcc fixA .enabled 3 0x0090).profile = some fixA ∧
    (onAcc fixA .enabled 3 0x0090).events = [.acc 0x0090 View.zero] ∧
    decode ((onAcc fixA .enabled 3 0x0090).mode fixA) (Event.code (.acc 0x0090 View.zero)) =
      .rows [.enBank 0x0090 1] := by decide

theorem witness_WithoutInstanceOnlyCfgRuns :
    (unconfigured [.cfg 1]).profile = none ∧ (unconfigured [.cfg 1]).events = [.cfg 1] ∧
    (unconfigured [.peek]).profile = none ∧ (unconfigured [.peek]).events = [.peek] := by decide

theorem witness_WithoutEventNoStep : (unconfigured []).events = [] := by decide

theorem witness_RunIsFoldOverEvents :
    State.events { inst fixA .enabled 3 with events := accesses [0x0090, 0x0000] } =
      accesses [0x0090] ++ accesses [0x0000] := by decide

/-- A commit that changes the bank, from Enabled. -/
theorem witness_AccessReturnsBankAfterStep :
    (onAcc fixA .enabled 3 0x0090).events = [.acc 0x0090 View.zero] ∧
    ∃ t : State, step (onAcc fixA .enabled 3 0x0090) = .next t ∧
      t.currentBank ≠ (onAcc fixA .enabled 3 0x0090).currentBank :=
  ⟨by decide, _, rfl, by decide⟩

theorem witness_ZeroAddressArmsFromAnyState :
    (onAcc fixA .alternate3 3 0).profile = some fixA ∧
    (onAcc fixA .alternate3 3 0).events = [.acc 0 View.zero] := by decide

theorem witness_DisabledIgnoresNonzeroAddresses :
    AccessAt (onAcc fixA .disabled 3 0x0090) fixA .disabled 0x0090 := by decide

/-- Each clause: bit1; add1; alt1; a bank address; none. -/
theorem witness_EnabledFirstMatchWins :
    (AccessAt (onAcc fixA .enabled 3 0x1540) fixA .enabled 0x1540 ∧
      fixA.supportsBitwise = true ∧ fixA.bit1.accepts 0x1540 = true) ∧
    (AccessAt (onAcc fixB .enabled 0 0x34C0) fixB .enabled 0x34C0 ∧
      ¬(fixB.supportsBitwise = true ∧ fixB.bit1.accepts 0x34C0 = true) ∧
      fixB.supportsAdditive = true ∧ fixB.add1.accepts 0x34C0 = true) ∧
    (AccessAt (onAcc fixB .enabled 0 0x0055) fixB .enabled 0x0055 ∧
      ¬(fixB.supportsBitwise = true ∧ fixB.bit1.accepts 0x0055 = true) ∧
      ¬(fixB.supportsAdditive = true ∧ fixB.add1.accepts 0x0055 = true) ∧
      fixB.alt1.accepts 0x0055 = true) ∧
    (AccessAt (onAcc fixA .enabled 3 0x00B0) fixA .enabled 0x00B0 ∧
      ¬(fixA.supportsBitwise = true ∧ fixA.bit1.accepts 0x00B0 = true) ∧
      ¬(fixA.supportsAdditive = true ∧ fixA.add1.accepts 0x00B0 = true) ∧
      fixA.alt1.accepts 0x00B0 = false ∧ fixA.alt2.accepts 0x00B0 = false ∧
      fixA.bankIndex 0x00B0 = some 3) ∧
    (AccessAt (onAcc fixA .enabled 3 0x00B1) fixA .enabled 0x00B1 ∧
      fixA.alt1.accepts 0x00B1 = false ∧ fixA.alt2.accepts 0x00B1 = false ∧
      fixA.bankIndex 0x00B1 = none) := by decide

theorem witness_AlternateOneAdvancesOrFallsBack :
    AccessAt (onAcc fixA .alternate1 3 0x1DFF) fixA .alternate1 0x1DFF ∧
    fixA.alt2.accepts 0x1DFF = true ∧
    AccessAt (onAcc fixA .alternate1 3 0x1DFE) fixA .alternate1 0x1DFE ∧
    fixA.alt2.accepts 0x1DFE = false := by decide

theorem witness_AlternateTwoCapturesOrFallsBack :
    AccessAt (onAcc fixA .alternate2 3 0x1B5F) fixA .alternate2 0x1B5F ∧
    fixA.alt3.accepts 0x1B5F = true ∧
    AccessAt (onAcc fixA .alternate2 3 0x1B60) fixA .alternate2 0x1B60 ∧
    fixA.alt3.accepts 0x1B60 = false := by decide

theorem witness_AlternateThreeCommitsOrWaits :
    AccessAt (onAcc fixA .alternate3 3 0x00B0) fixA .alternate3 0x00B0 ∧
    fixA.alt4.accepts 0x00B0 = true ∧
    AccessAt (onAcc fixA .alternate3 3 0x00B1) fixA .alternate3 0x00B1 ∧
    fixA.alt4.accepts 0x00B1 = false := by decide

theorem witness_BitwiseOneSeedsOrWaits :
    AccessAt (onAcc fixA .bitwise1 3 0x00B0) fixA .bitwise1 0x00B0 ∧
    (∃ i : Bank, bankAddressOf fixA i = 0x00B0) ∧
    AccessAt (onAcc fixA .bitwise1 3 0x00B1) fixA .bitwise1 0x00B1 ∧
    (∀ i : Bank, bankAddressOf fixA i ≠ 0x00B1) := by decide

theorem witness_BitwiseTwoIsOneElseIfChain :
    AccessAt (onAcc fixA .bitwise2 3 0x1540) fixA .bitwise2 0x1540 := by decide

theorem witness_BitwiseThreeCommitsOrWaits :
    AccessAt (onAcc fixA .bitwise3 3 0x0080) fixA .bitwise3 0x0080 ∧
    (∃ i : Bank, bankAddressOf fixA i = 0x0080) ∧
    AccessAt (onAcc fixA .bitwise3 3 0x0081) fixA .bitwise3 0x0081 ∧
    (∀ i : Bank, bankAddressOf fixA i ≠ 0x0081) := by decide

theorem witness_AdditiveOneSeedsOrFallsBack :
    AccessAt (onAcc fixB .additive1 0 0x0D40) fixB .additive1 0x0D40 ∧
    fixB.add2.accepts 0x0D40 = true ∧
    AccessAt (onAcc fixB .additive1 0 0x0D41) fixB .additive1 0x0D41 ∧
    fixB.add2.accepts 0x0D41 = false := by decide

theorem witness_AdditiveTwoChecksAreIndependent :
    AccessAt (onAcc fixB .additive2 0 0x0E07) fixB .additive2 0x0E07 := by decide

theorem witness_AdditiveThreeCommitsOrWaits :
    AccessAt (onAcc fixB .additive3 0 0x0070) fixB .additive3 0x0070 ∧
    (∃ i : Bank, bankAddressOf fixB i = 0x0070) ∧
    AccessAt (onAcc fixB .additive3 0 0x0E07) fixB .additive3 0x0E07 ∧
    (∀ i : Bank, bankAddressOf fixB i ≠ 0x0E07) := by decide

theorem witness_PlainHintTrustsTheBus :
    AccessAt (onAcc fixA .enabled 3 0x1DFF) fixA .enabled 0x1DFF ∧
    (onAcc fixA .enabled 3 0x1DFF).hostArchitectureHint = .plain ∧
    fixA.passesToAlt2 0x1DFF = true ∧ fixA.alt2.accepts 0x1DFF = true := by decide

theorem witness_ValidatorResultBecomesState :
    (onAltK View.zero).hostArchitectureHint ≠ .unknown ∧
    AccessAt (onAltK View.zero) fixB .enabled 0x30D0 ∧
    fixB.passesToAlt2 0x30D0 = true ∧ fixB.alt2.accepts 0x30D0 = true := by decide

/-- The state of P6 with its view latched, and two whose pointer or opcode check fails. -/
theorem witness_IntrospectRunsTheHostForm :
    ((introspecting (viewOf 0x0100AA 0xB348 0x1A38)).profile = some fixB ∧
      (introspecting (viewOf 0x0100AA 0xB348 0x1A38)).hostArchitectureHint = .introspect ∧
      fixB.alt1.accepts ((introspecting (viewOf 0x0100AA 0xB348 0x1A38)).view.ip >>> 1) = true ∧
      decodeHostOp ((introspecting (viewOf 0x0100AA 0xB348 0x1A38)).view.memory.read 0x0100AA) =
        some (.ctxB 1 0)) ∧
    (fixB.alt1.accepts ((introspecting (viewOf 0x0100AA 0xB340 0x1A38)).view.ip >>> 1) = true ∧
      decodeHostOp ((introspecting (viewOf 0x0100AA 0xB340 0x1A38)).view.memory.read 0x0100AA) =
        none) ∧
    fixB.alt1.accepts ((introspecting (viewOf 0x0100A8 0xB348 0x1A38)).view.ip >>> 1) = false := by
  decide

theorem witness_UnknownHintRefusesOnlyAlt2 :
    (fresh []).profile = some fixA ∧ (fresh []).hostArchitectureHint = .unknown ∧
    fixA.passesToAlt2 0x1DFF = true ∧ fixA.alt2.accepts 0x1DFF = true := by decide

/-- Two views that differ in a register no word names and in a word nothing points at. -/
theorem witness_ValidatorReadsOnlyThreeValues :
    let v : View := viewOf 0x0100AA 0xB348 0x1A38
    let w : View := { v with r2 := 9, memory := v.memory.write 5 5 }
    v ≠ w ∧ v.ip = w.ip ∧ v.readWord v.ip = w.readWord w.ip ∧
    v.readReg (registerSelect (v.readWord v.ip)) =
      w.readReg (registerSelect (v.readWord v.ip)) := by decide

theorem witness_CfgCreatesInstance :
    (unconfigured []).profile = none ∧ lookupProfile (unconfigured []).catalog 1 = some fixA := by
  decide

theorem witness_ConfigurationErrorOnlyAtCfg :
    (unconfigured [.cfg 5]).profile = none ∧
    lookupProfile (unconfigured [.cfg 5]).catalog 5 = none ∧
    stop (step (unconfigured [.cfg 5])) = some (.inl (.configurationError 5)) := by decide

theorem witness_HintIsSetOnceBeforeAccesses :
    ((fresh []).profile = some fixA ∧ (fresh []).hostArchitectureHint = .unknown ∧
      (fresh []).accessed = false) ∧
    ((loaded fixA .plain 3 []).profile = some fixA ∧
      (loaded fixA .plain 3 []).hostArchitectureHint ≠ .unknown) ∧
    (State.profile { inst fixA .enabled 3 with hostArchitectureHint := .unknown } = some fixA ∧
      State.hostArchitectureHint { inst fixA .enabled 3 with hostArchitectureHint := .unknown } =
        .unknown ∧
      State.accessed { inst fixA .enabled 3 with hostArchitectureHint := .unknown } = true) := by decide

theorem witness_DiagForwardsLastSnapshot :
    State.lastAccess { inst fixA .disabled 1 with lastAccess := some ⟨0x0090, 1, .disabled⟩ } =
      some ⟨0x0090, 1, .disabled⟩ ∧
    (inst fixA .disabled 1).lastAccess = none := by decide

theorem inv_of_enabled {P : Profile} {b : Bank} {a : Nat} : Inv (onAcc P .enabled b a) where
  toggle := .inl rfl
  views := ⟨rfl, by
    intro e he
    simp only [onAcc, accesses, List.map, List.mem_singleton] at he
    subst he
    rfl⟩
  untouched := by
    rintro (h | h)
    · cases h
    · cases h
  mode := fun _ _ => trivial

theorem witness_StepKeepsInvariant :
    Inv (onAcc fixA .enabled 3 0x0090) ∧ ∃ t : State, step (onAcc fixA .enabled 3 0x0090) = .next t :=
  ⟨inv_of_enabled, _, rfl⟩

/-- Two states that differ in a scratch register that is stale. -/
theorem witness_StaleScratchIsUnobservable :
    SameButStaleScratch (onAcc fixA .enabled 3 0x0090)
      { onAcc fixA .enabled 3 0x0090 with pendingBitBank := 2, bitToggle := 3, freeCount := 7 } := by
  constructor <;> decide

theorem witness_ReadyRunsToTheEnd :
    ((onAltK View.zero).profile.isSome = true ∧ (onAltK View.zero).hostArchitectureHint ≠ .unknown) ∧
    ∀ e ∈ (onAltK View.zero).events, e.isRuntime = true := by decide

theorem witness_ConfigurationIsImmutable :
    (onAcc fixA .enabled 3 0x0090).profile = some fixA ∧
    (onAcc fixA .enabled 3 0x0090).events = [.acc 0x0090 View.zero] ∧
    (∃ t : State, step (onAcc fixA .enabled 3 0x0090) = .next t) ∧
    ∀ f : HostFamily, Event.acc 0x0090 View.zero ≠ .hint f :=
  ⟨rfl, rfl, ⟨_, rfl⟩, fun _ h => nomatch h⟩

/-- FIX-C under Introspect: its alt2 address 0xA5 seen in Enabled. -/
theorem witness_AbsentAltOneShutsIntrospectOut :
    ∃ s t : State, step s = .next t ∧ t.profile = some fixC ∧ fixC.alt1 = .absent ∧
      t.hostArchitectureHint = .introspect ∧ s.protocolState = .enabled :=
  ⟨{ onAcc fixC .enabled 1 0xA5 with hostArchitectureHint := .introspect }, _, rfl, rfl, rfl, rfl, rfl⟩

theorem witness_WaitingStatesNeverTimeOut :
    (inst fixA .alternate3 3).profile = some fixA ∧
    (∀ av ∈ [((0x1234 : Nat), View.zero), (0x0555, View.zero)],
      av.1 ≠ 0 ∧ staysPut fixA .alternate3 0 av.1 = true) ∧
    State.events { inst fixA .alternate3 3 with events := accesses [0x1234, 0x0555] } =
      [((0x1234 : Nat), View.zero), (0x0555, View.zero)].map (fun av => Event.acc av.1 av.2) := by
  decide

/-- S3, for bank index 2. -/
theorem witness_SimpleModeRoundTrip :
    (loaded fixA .plain 3 (accesses ([0] ++ [0x1234, 0x0777] ++ [bankAddressOf fixA 2]))).profile =
      some fixA ∧
    bankAddressOf fixA 2 ≠ 0 ∧ fixA.passesToBank (bankAddressOf fixA 2) = true ∧
    (∀ j : Bank, j < 2 → bankAddressOf fixA j ≠ bankAddressOf fixA 2) ∧
    (∀ u ∈ [0x1234, 0x0777], u ≠ 0 ∧ staysPut fixA .enabled 0#2 u = true) := by decide

/-- A1. -/
theorem witness_AlternateSequenceCommits :
    (loaded fixA .plain 3 (scriptAlt 0x1DFE 0x1DFF 0x1B5E 0x0090)).profile = some fixA ∧
    fixA.startsBitwise 0x1DFE = false ∧ fixA.startsAdditive 0x1DFE = false ∧
    fixA.alt1.accepts 0x1DFE = true ∧ fixA.alt2.accepts 0x1DFF = true ∧
    fixA.alt3.accepts 0x1B5E = true ∧ fixA.alt4.accepts 0x0090 = true := by decide

/-- P6. -/
theorem witness_ValidatorSequenceCommits :
    (loaded fixB .introspect 0
      (scriptAltK 0x30D0 (viewOf 0x0100AA 0xB348 0x1A38) 0x0070)).profile = some fixB ∧
    (loaded fixB .introspect 0
      (scriptAltK 0x30D0 (viewOf 0x0100AA 0xB348 0x1A38) 0x0070)).hostArchitectureHint =
      .introspect ∧
    fixB.passesToAlt2 0x30D0 = true ∧ fixB.alt2.accepts 0x30D0 = true ∧
    fixB.alt1.accepts ((viewOf 0x0100AA 0xB348 0x1A38).ip >>> 1) = true ∧
    (viewOf 0x0100AA 0xB348 0x1A38).memory.read 0x0100AA = encodeFormB 1 0 ∧
    fixB.alt3.accepts ((viewOf 0x0100AA 0xB348 0x1A38).readReg 1 >>> 1) = true ∧
    fixB.alt4.accepts 0x0070 = true := by decide

/-- B2 without its ignored access: from bank 3, and the folded result 2 with toggle 3. -/
theorem witness_BitwiseSequenceFoldsTwiddles :
    (loaded fixA .plain 3 (scriptBitw 0x1545 (bankAddressOf fixA 2) [0x1540, 0x1541, 0x1543] 0x1550
      (bankAddressOf fixA 3))).profile = some fixA ∧
    fixA.startsBitwise 0x1545 = true ∧ bankAddressOf fixA 2 ≠ 0 ∧ bankAddressOf fixA 3 ≠ 0 ∧
    (∀ x ∈ [0x1540, 0x1541, 0x1543], x ≠ 0 ∧ fixA.bit3.accepts x = false) ∧
    [0x1540, 0x1541, 0x1543].foldl (twiddleOne fixA) (3, 0) = (2, 3) ∧
    fixA.noTwiddle 3 0x1550 = true ∧ fixA.bit3.accepts 0x1550 = true := by decide

/-- D3: four increments of 1 and one of 2. -/
theorem witness_AdditiveSequenceAddsModuloFour :
    (loaded fixB .plain 0 (scriptAddv 0x34C0 0x0D40 ([0x0E01, 0x0E02, 0x0E01, 0x0E01] ++ [0x0E05])
      (bankAddressOf fixB 0))).profile = some fixB ∧
    fixB.startsBitwise 0x34C0 = false ∧ fixB.startsAdditive 0x34C0 = true ∧
    fixB.add2.accepts 0x0D40 = true ∧
    (∀ x ∈ [0x0E01, 0x0E02, 0x0E01, 0x0E01], x ≠ 0 ∧ fixB.add3.accepts x = false) ∧
    fixB.add3.accepts 0x0E05 = true ∧ bankAddressOf fixB 0 ≠ 0 ∧
    increments fixB [0x0E01, 0x0E02, 0x0E01, 0x0E01, 0x0E05] = 6 := by decide

end Sys2Proof.Tests
end

section
/-! The trigger pattern (40_trigger_pattern.md): what the comparator answers for each form of a
pattern. -/

namespace Sys2Proof

@[simp] theorem TriggerPattern.accepts_absent (a : Nat) :
    TriggerPattern.absent.accepts a = false := rfl

@[simp] theorem TriggerPattern.accepts_pattern_iff (mask value a : Nat) :
    (TriggerPattern.pattern mask value).accepts a = true ↔ a &&& mask = value &&& mask :=
  beq_iff_eq

/-- Settles O1: the two lines of R90, one for each form of a pattern. -/
theorem matchComparesMaskedValues : Obligations.MatchComparesMaskedValues := by
  intro a
  constructor
  · exact TriggerPattern.accepts_absent a
  · intro mask value
    exact TriggerPattern.accepts_pattern_iff mask value a

end Sys2Proof
end

section
/-! The decoder in Enabled (42_fsm_global_simple.md R114): the row of each branch of the chain, and
the conditions that select it. -/

namespace Sys2Proof

theorem Profile.startsBitwise_iff {P : Profile} {a : Nat} :
    P.startsBitwise a = true ↔ P.supportsBitwise = true ∧ P.bit1.accepts a = true :=
  Bool.and_eq_true_iff

theorem Profile.startsAdditive_iff {P : Profile} {a : Nat} :
    P.startsAdditive a = true ↔ P.supportsAdditive = true ∧ P.add1.accepts a = true :=
  Bool.and_eq_true_iff

theorem Profile.passesToAlt2_iff {P : Profile} {a : Nat} :
    P.passesToAlt2 a = true ↔
      P.startsBitwise a = false ∧ P.startsAdditive a = false ∧ P.alt1.accepts a = false := by
  simp [Profile.passesToAlt2, and_assoc]

theorem Profile.passesToBank_iff {P : Profile} {a : Nat} :
    P.passesToBank a = true ↔ P.passesToAlt2 a = true ∧ P.alt2.accepts a = false := by
  simp [Profile.passesToBank]

/-- Arming comes before the state is looked at (30_encoding.md R72). -/
@[simp] theorem decodeAccess_zero (m : Mode) : decodeAccess m 0 = [.arm] := rfl

theorem decodeAccess_enabled {m : Mode} {a : Nat} (ha : a ≠ 0) (hm : m.protocolState = .enabled) :
    decodeAccess m a = [decodeEnabled m.profile a] := by
  simp [decodeAccess, ha, hm]

section EnabledChain

variable {P : Profile} {a : Nat}

theorem decodeEnabled_bit1 (hb : P.startsBitwise a = true) : decodeEnabled P a = .enBit1 a := by
  simp [decodeEnabled, hb]

theorem decodeEnabled_add1 (hb : P.startsBitwise a = false) (hd : P.startsAdditive a = true) :
    decodeEnabled P a = .enAdd1 a := by
  simp [decodeEnabled, hb, hd]

theorem decodeEnabled_alt1 (hb : P.startsBitwise a = false) (hd : P.startsAdditive a = false)
    (h1 : P.alt1.accepts a = true) : decodeEnabled P a = .enAlt1 a := by
  simp [decodeEnabled, hb, hd, h1]

theorem decodeEnabled_alt2 (hp : P.passesToAlt2 a = true) (h2 : P.alt2.accepts a = true) :
    decodeEnabled P a = .enAlt2 a := by
  obtain ⟨hb, hd, h1⟩ := Profile.passesToAlt2_iff.mp hp
  simp [decodeEnabled, hb, hd, h1, h2]

theorem decodeEnabled_bank {i : Bank} (hp : P.passesToBank a = true)
    (hi : P.bankIndex a = some i) : decodeEnabled P a = .enBank a i := by
  obtain ⟨hp, h2⟩ := Profile.passesToBank_iff.mp hp
  obtain ⟨hb, hd, h1⟩ := Profile.passesToAlt2_iff.mp hp
  simp [decodeEnabled, hb, hd, h1, h2, hi]

theorem decodeEnabled_nop (hp : P.passesToBank a = true) (hi : P.bankIndex a = none) :
    decodeEnabled P a = .enNop a := by
  obtain ⟨hp, h2⟩ := Profile.passesToBank_iff.mp hp
  obtain ⟨hb, hd, h1⟩ := Profile.passesToAlt2_iff.mp hp
  simp [decodeEnabled, hb, hd, h1, h2, hi]

end EnabledChain

end Sys2Proof
end

section
/-! What the arming row and the Enabled rows write, and the step of an ACC that decodes
to one row. -/

namespace Sys2Proof.Machine

section Rows

variable {s : State} {P : Profile} (a : Nat)

theorem exec_arm (hP : s.profile = some P) : exec .arm s = .next (s.goto .enabled) :=
  onInstance_some hP

theorem exec_enBit1 (hP : s.profile = some P) : exec (.enBit1 a) s = .next (s.goto .bitwise1) :=
  onInstance_some hP

theorem exec_enAdd1 (hP : s.profile = some P) : exec (.enAdd1 a) s = .next (s.goto .additive1) :=
  onInstance_some hP

theorem exec_enAlt1 (hP : s.profile = some P) : exec (.enAlt1 a) s = .next (s.goto .alternate1) :=
  onInstance_some hP

theorem exec_enBank (i : Bank) (hP : s.profile = some P) :
    exec (.enBank a i) s = .next (s.commit i) :=
  onInstance_some hP

theorem exec_enNop (hP : s.profile = some P) : exec (.enNop a) s = .next s :=
  onInstance_some hP

end Rows

section Access

variable {s t : State} {P : Profile} {a : Nat} {v : View} {rest : List Event} {i : Instr}

/-- An ACC that decodes to one row runs it on the state with the event taken and the view latched,
and answers (42_fsm_global_simple.md R110). -/
theorem step_of_row (hP : s.profile = some P) (he : s.events = .acc a v :: rest)
    (hd : decodeAccess (s.mode P) a = [i])
    (hi : exec i ((s.dequeue rest).present v) = .next t) :
    step s = .next (t.respond a) := by
  rw [step_access hP he, hd, runRows_singleton, hi, mapNext_next]

theorem step_of_enabled_row (hP : s.profile = some P) (he : s.events = .acc a v :: rest)
    (ha : a ≠ 0) (hs : s.protocolState = .enabled) (hd : decodeEnabled P a = i)
    (hi : exec i ((s.dequeue rest).present v) = .next t) :
    step s = .next (t.respond a) :=
  step_of_row hP he (by rw [decodeAccess_enabled ha hs, State.mode_profile, hd]) hi

end Access

/-- Settles O17: arming is decoded before the state is looked at, and its row writes only the
sequencer state. -/
theorem zeroAddressArmsFromAnyState : Obligations.ZeroAddressArmsFromAnyState := by
  intro s P hP
  refine ⟨exec_arm hP, fun v rest he => ?_⟩
  exact step_of_row hP he (decodeAccess_zero _) (exec_arm hP)

/-- Settles O20, branch by branch along the chain of R114. -/
theorem enabledFirstMatchWins : Obligations.EnabledFirstMatchWins := by
  intro s P a v rest hP hs ha he t
  have hPt : t.profile = some P := hP
  refine ⟨fun hbit => ?_, fun hbit => ⟨fun hadd => ?_, fun hadd => ⟨fun h1 => ?_, fun h1 h2 => ?_⟩⟩⟩
  · exact step_of_enabled_row hP he ha hs
      (decodeEnabled_bit1 (Profile.startsBitwise_iff.mpr hbit)) (exec_enBit1 a hPt)
  all_goals
    have hb : P.startsBitwise a = false :=
      Bool.eq_false_iff.mpr (mt Profile.startsBitwise_iff.mp hbit)
  · exact step_of_enabled_row hP he ha hs
      (decodeEnabled_add1 hb (Profile.startsAdditive_iff.mpr hadd)) (exec_enAdd1 a hPt)
  all_goals
    have hd : P.startsAdditive a = false :=
      Bool.eq_false_iff.mpr (mt Profile.startsAdditive_iff.mp hadd)
  · exact step_of_enabled_row hP he ha hs (decodeEnabled_alt1 hb hd h1) (exec_enAlt1 a hPt)
  · have hp : P.passesToBank a = true :=
      Profile.passesToBank_iff.mpr ⟨Profile.passesToAlt2_iff.mpr ⟨hb, hd, h1⟩, h2⟩
    constructor
    · intro i hi
      exact step_of_enabled_row hP he ha hs (decodeEnabled_bank hp hi) (exec_enBank a i hPt)
    · intro hi
      exact step_of_enabled_row hP he ha hs (decodeEnabled_nop hp hi) (exec_enNop a hPt)

end Sys2Proof.Machine
end

section
/-! EN.ALT2 against the validator's function (46_cpu_context.md R170): row by row it reaches the
result of `resolveAlternate2`. -/

namespace Sys2Proof.Machine

/-- The validator's answer made the new state (46_cpu_context.md R176 to R178). -/
def State.resolveTo (s : State) (P : Profile) (r : Resolution) : State :=
  match r with
  | .alternate3 w => (s.setAlt (bankField P.altShift w)).goto .alternate3
  | .alternate2 => s.goto .alternate2
  | .enabled => s.goto .enabled

/-- The validator has an answer for every hint but Unknown. -/
theorem resolveAlternate2_defined (P : Profile) {h : Hint} (v : View) (hh : h ≠ .unknown) :
    ∃ r, resolveAlternate2 P h v = some r := by
  cases h with
  | unknown => exact absurd rfl hh
  | plain => exact ⟨.alternate2, rfl⟩
  | introspect =>
    simp only [resolveAlternate2]
    split_ifs <;> exact ⟨_, rfl⟩

section Validator

variable {s : State} {P : Profile}

theorem execKAlt3_eq (w : Nat) (hP : s.profile = some P) :
    execKAlt3 w s = .next (s.resolveTo P (.alternate3 w)) :=
  onInstance_some hP

theorem execKAlt2_eq (hP : s.profile = some P) : execKAlt2 s = .next (s.resolveTo P .alternate2) :=
  onInstance_some hP

theorem execKFail_eq (hP : s.profile = some P) : execKFail s = .next (s.resolveTo P .enabled) :=
  onInstance_some hP

theorem registerCheck_eq (n : RegNum) (hP : s.profile = some P) :
    registerCheck n s =
      .next (s.resolveTo P
        (if P.alt3.accepts (wordAddress (s.view.readReg n)) then
          .alternate3 (wordAddress (s.view.readReg n)) else .enabled)) := by
  rw [registerCheck, onInstance_some hP, execKAlt3_eq _ hP, execKFail_eq hP]
  split_ifs <;> rfl

/-- Both accepted forms run the register check on the selected register (46_cpu_context.md R173). -/
theorem opcodeCheck_eq (s : State) :
    opcodeCheck s =
      if isFormA (s.view.readWord s.view.ip) || isFormB (s.view.readWord s.view.ip) then
        registerCheck (registerSelect (s.view.readWord s.view.ip)) s
      else execKFail s := by
  cases hA : isFormA (s.view.readWord s.view.ip) <;> simp [opcodeCheck, execCtxA, execCtxB, hA]

/-- EN.ALT2 makes the validator's result the new state (42_fsm_global_simple.md R118). -/
theorem exec_enAlt2_of_resolve {r : Resolution} (a : Nat) (hP : s.profile = some P)
    (hr : resolveAlternate2 P s.hostArchitectureHint s.view = some r) :
    exec (.enAlt2 a) s = .next (s.resolveTo P r) := by
  rw [exec, execEnAlt2, onInstance_some hP]
  cases hh : s.hostArchitectureHint with
  | unknown => simp [resolveAlternate2, hh] at hr
  | plain =>
    obtain rfl : .alternate2 = r := by simpa [resolveAlternate2, hh] using hr
    exact execKAlt2_eq hP
  | introspect =>
    simp only [resolveAlternate2, hh] at hr
    simp only [opcodeCheck_eq, registerCheck_eq _ hP, execKFail_eq hP]
    split_ifs at hr ⊢ <;> cases hr <;> rfl

theorem exec_enAlt2_resolves (a : Nat) (hP : s.profile = some P)
    (hh : s.hostArchitectureHint ≠ .unknown) :
    ∃ r, resolveAlternate2 P s.hostArchitectureHint s.view = some r ∧
      exec (.enAlt2 a) s = .next (s.resolveTo P r) := by
  obtain ⟨r, hr⟩ := resolveAlternate2_defined P s.view hh
  exact ⟨r, hr, exec_enAlt2_of_resolve a hP hr⟩

end Validator

/-- Settles O35: EN.ALT2 reaches the validator's result on the state with the view latched, and is
the row decoded once the first three Enabled checks fail. -/
theorem validatorResultBecomesState : Obligations.ValidatorResultBecomesState := by
  intro s P a hP hh becomes
  have hbecomes : ∀ (r : Resolution) (t : State), t.resolveTo P r = becomes r t := by
    intro r t
    cases r <;> rfl
  simp only [← hbecomes]
  refine ⟨exec_enAlt2_resolves a hP hh, fun v rest ha hs hp h2 he => ?_⟩
  obtain ⟨r, hr, hexec⟩ :=
    exec_enAlt2_resolves (s := (s.dequeue rest).present v) a hP hh
  exact ⟨r, hr, step_of_enabled_row hP he ha hs (decodeEnabled_alt2 hp h2) hexec⟩

end Sys2Proof.Machine
end

section
/-! Alternate3 (43_fsm_alternate.md R135, R136): which row an access decodes to, and what the rows
write. -/

namespace Sys2Proof

theorem decodeAccess_alternate3_alt4 {m : Mode} {a : Nat} (ha : a ≠ 0)
    (hm : m.protocolState = .alternate3) (h4 : m.profile.alt4.accepts a = true) :
    decodeAccess m a = [.a3Alt4 a] := by
  simp [decodeAccess, ha, hm, h4]

theorem decodeAccess_alternate3_wait {m : Mode} {a : Nat} (ha : a ≠ 0)
    (hm : m.protocolState = .alternate3) (h4 : m.profile.alt4.accepts a = false) :
    decodeAccess m a = [.a3Wait a] := by
  simp [decodeAccess, ha, hm, h4]

namespace Machine

section AlternateThreeRows

variable {s : State} {P : Profile} (a : Nat)

theorem exec_a3Alt4 (hP : s.profile = some P) :
    exec (.a3Alt4 a) s = .next (s.commit s.pendingAltBank) :=
  onInstance_some hP

theorem exec_a3Wait (hP : s.profile = some P) : exec (.a3Wait a) s = .next s :=
  onInstance_some hP

end AlternateThreeRows

/-- Settles O23: alt4 alone tells the committing row from the waiting one, and the row runs on the
state with the event taken and the view latched. -/
theorem alternateThreeCommitsOrWaits : Obligations.AlternateThreeCommitsOrWaits := by
  intro s P a hP
  refine ⟨exec_a3Alt4 a hP, exec_a3Wait a hP, ?_⟩
  intro v rest ha hs he t
  have hPt : t.profile = some P := hP
  constructor
  · intro h4
    exact step_of_row hP he (decodeAccess_alternate3_alt4 ha hs h4) (exec_a3Alt4 a hPt)
  · intro h4
    exact step_of_row hP he (decodeAccess_alternate3_wait ha hs h4) (exec_a3Wait a hPt)

end Machine

end Sys2Proof
end

section
/-! Bitwise1 and Bitwise3 (44_fsm_bitwise.md R141, R142, R150, R151): both compare the access
with the four bank addresses, whichever of them it is. -/

namespace Sys2Proof

section BankCompare

variable {m : Mode} {a : Nat}

theorem decodeAccess_bitwise1_bank (ha : a ≠ 0) (hm : m.protocolState = .bitwise1)
    (hb : m.profile.isBankAddress a = true) : decodeAccess m a = [.b1Bank a] := by
  simp [decodeAccess, ha, hm, hb]

theorem decodeAccess_bitwise1_wait (ha : a ≠ 0) (hm : m.protocolState = .bitwise1)
    (hb : m.profile.isBankAddress a = false) : decodeAccess m a = [.b1Wait a] := by
  simp [decodeAccess, ha, hm, hb]

theorem decodeAccess_bitwise3_bank (ha : a ≠ 0) (hm : m.protocolState = .bitwise3)
    (hb : m.profile.isBankAddress a = true) : decodeAccess m a = [.b3Bank a] := by
  simp [decodeAccess, ha, hm, hb]

theorem decodeAccess_bitwise3_wait (ha : a ≠ 0) (hm : m.protocolState = .bitwise3)
    (hb : m.profile.isBankAddress a = false) : decodeAccess m a = [.b3Wait a] := by
  simp [decodeAccess, ha, hm, hb]

end BankCompare

namespace Machine

section BankAddress

variable {P : Profile} {a : Nat}

theorem isBankAddress_iff : P.isBankAddress a = true ↔ ∃ i : Bank, bankAddressOf P i = a := by
  simp only [isBankAddress_eq, Bool.or_eq_true, beq_iff_eq]
  constructor
  · rintro (((h | h) | h) | h)
    · exact ⟨0, h.symm⟩
    · exact ⟨1, h.symm⟩
    · exact ⟨2, h.symm⟩
    · exact ⟨3, h.symm⟩
  · rintro ⟨i, rfl⟩
    unfold bankAddressOf
    split <;> simp

theorem isBankAddress_eq_false_iff :
    P.isBankAddress a = false ↔ ∀ i : Bank, bankAddressOf P i ≠ a := by
  rw [← Bool.not_eq_true, isBankAddress_iff, not_exists]

end BankAddress

section BankRows

variable {s : State} {P : Profile} (a : Nat)

theorem exec_b1Bank (hP : s.profile = some P) :
    exec (.b1Bank a) s =
      .next (((s.setBits s.currentBank).setToggle toggleClear).goto .bitwise2) :=
  onInstance_some hP

theorem exec_b1Wait (hP : s.profile = some P) : exec (.b1Wait a) s = .next s :=
  onInstance_some hP

theorem exec_b3Bank (hP : s.profile = some P) :
    exec (.b3Bank a) s = .next (s.commit s.pendingBitBank) :=
  onInstance_some hP

theorem exec_b3Wait (hP : s.profile = some P) : exec (.b3Wait a) s = .next s :=
  onInstance_some hP

end BankRows

/-- Settles O24: the comparator with the bank addresses alone tells the seeding row from the waiting
one. -/
theorem bitwiseOneSeedsOrWaits : Obligations.BitwiseOneSeedsOrWaits := by
  intro s P a hP
  refine ⟨exec_b1Bank a hP, exec_b1Wait a hP, ?_⟩
  intro v rest ha hs he t
  have hPt : t.profile = some P := hP
  constructor
  · intro hbank
    exact step_of_row hP he (decodeAccess_bitwise1_bank ha hs (isBankAddress_iff.mpr hbank))
      (exec_b1Bank a hPt)
  · intro hbank
    exact step_of_row hP he
      (decodeAccess_bitwise1_wait ha hs (isBankAddress_eq_false_iff.mpr hbank)) (exec_b1Wait a hPt)

/-- Settles O27: as in Bitwise1, and the committing row takes the pending bank, whichever bank
address selected it. -/
theorem bitwiseThreeCommitsOrWaits : Obligations.BitwiseThreeCommitsOrWaits := by
  intro s P a hP
  refine ⟨exec_b3Bank a hP, exec_b3Wait a hP, ?_⟩
  intro v rest ha hs he t
  have hPt : t.profile = some P := hP
  constructor
  · intro hbank
    exact step_of_row hP he (decodeAccess_bitwise3_bank ha hs (isBankAddress_iff.mpr hbank))
      (exec_b3Bank a hPt)
  · intro hbank
    exact step_of_row hP he
      (decodeAccess_bitwise3_wait ha hs (isBankAddress_eq_false_iff.mpr hbank)) (exec_b3Wait a hPt)

end Machine

end Sys2Proof
end

section
/-! Bitwise2 (44_fsm_bitwise.md R143 to R149): the row of each branch of the chain, and what the
rows write. -/

namespace Sys2Proof

theorem decodeAccess_bitwise2 {m : Mode} {a : Nat} (ha : a ≠ 0) (hm : m.protocolState = .bitwise2) :
    decodeAccess m a = [decodeBitwise2 m.profile m.bitToggle a] := by
  simp [decodeAccess, ha, hm]

namespace Machine

section Twiddles

variable (s : State)

/-- In two bits, clearing bit 0 keeps bit 1 alone. -/
theorem State.twiddle_clearBit0 :
    s.twiddle clearBit0 =
      { s with pendingBitBank := s.pendingBitBank &&& 2#2, bitToggle := s.bitToggle ^^^ 3#2 } := rfl

theorem State.twiddle_setBit0 :
    s.twiddle setBit0 =
      { s with pendingBitBank := s.pendingBitBank ||| 1#2, bitToggle := s.bitToggle ^^^ 3#2 } := rfl

/-- In two bits, clearing bit 1 keeps bit 0 alone. -/
theorem State.twiddle_clearBit1 :
    s.twiddle clearBit1 =
      { s with pendingBitBank := s.pendingBitBank &&& 1#2, bitToggle := s.bitToggle ^^^ 3#2 } := rfl

theorem State.twiddle_setBit1 :
    s.twiddle setBit1 =
      { s with pendingBitBank := s.pendingBitBank ||| 2#2, bitToggle := s.bitToggle ^^^ 3#2 } := rfl

end Twiddles

section BitwiseTwoRows

variable {s : State} {P : Profile} (a : Nat)

theorem exec_b2Clr0 (hP : s.profile = some P) :
    exec (.b2Clr0 a) s = .next (s.twiddle clearBit0) :=
  onInstance_some hP

theorem exec_b2Set0 (hP : s.profile = some P) :
    exec (.b2Set0 a) s = .next (s.twiddle setBit0) :=
  onInstance_some hP

theorem exec_b2Clr1 (hP : s.profile = some P) :
    exec (.b2Clr1 a) s = .next (s.twiddle clearBit1) :=
  onInstance_some hP

theorem exec_b2Set1 (hP : s.profile = some P) :
    exec (.b2Set1 a) s = .next (s.twiddle setBit1) :=
  onInstance_some hP

theorem exec_b2Esc (hP : s.profile = some P) : exec (.b2Esc a) s = .next (s.goto .bitwise3) :=
  onInstance_some hP

theorem exec_b2Wait (hP : s.profile = some P) : exec (.b2Wait a) s = .next s :=
  onInstance_some hP

end BitwiseTwoRows

/-- The state a nonzero access leaves in Bitwise2, before its answer (44_fsm_bitwise.md R147): the
four twiddle compares see the address XOR the toggle, the escape the raw address. -/
def State.bitwise2Access (s : State) (P : Profile) (a : Nat) : State :=
  if P.bit2ClearBit0.accepts (toggled s.bitToggle a) then s.twiddle clearBit0
  else if P.bit2SetBit0.accepts (toggled s.bitToggle a) then s.twiddle setBit0
  else if P.bit2ClearBit1.accepts (toggled s.bitToggle a) then s.twiddle clearBit1
  else if P.bit2SetBit1.accepts (toggled s.bitToggle a) then s.twiddle setBit1
  else if P.bit3.accepts a then s.goto .bitwise3
  else s

/-- The row the decoder picks under the state's own toggle reaches the chain's state. -/
theorem exec_decodeBitwise2 {s : State} {P : Profile} (a : Nat) (hP : s.profile = some P) :
    exec (decodeBitwise2 P s.bitToggle a) s = .next (s.bitwise2Access P a) := by
  unfold decodeBitwise2 State.bitwise2Access
  split_ifs
  · exact exec_b2Clr0 a hP
  · exact exec_b2Set0 a hP
  · exact exec_b2Clr1 a hP
  · exact exec_b2Set1 a hP
  · exact exec_b2Esc a hP
  · exact exec_b2Wait a hP

/-- Settles O26: one row is decoded, and its state is the branch of the chain that selected it. -/
theorem bitwiseTwoIsOneElseIfChain : Obligations.BitwiseTwoIsOneElseIfChain := by
  intro s P a v rest hP hs ha he t x
  have hPt : t.profile = some P := hP
  have hrow : decodeAccess (s.mode P) a = [decodeBitwise2 P t.bitToggle a] :=
    decodeAccess_bitwise2 ha hs
  have hstep : step s = .next ((t.bitwise2Access P a).respond a) :=
    step_of_row hP he hrow (exec_decodeBitwise2 a hPt)
  simp only [State.bitwise2Access, State.twiddle_clearBit0, State.twiddle_setBit0,
    State.twiddle_clearBit1, State.twiddle_setBit1] at hstep
  exact hstep

end Machine

end Sys2Proof
end

section
/-! Additive3 (45_fsm_additive.md R163, R164): the bank-address comparator tells the committing row
from the waiting one. -/

namespace Sys2Proof

section BankCompare

variable {m : Mode} {a : Nat}

theorem decodeAccess_additive3_bank (ha : a ≠ 0) (hm : m.protocolState = .additive3)
    (hb : m.profile.isBankAddress a = true) : decodeAccess m a = [.ad3Bank a] := by
  simp [decodeAccess, ha, hm, hb]

theorem decodeAccess_additive3_wait (ha : a ≠ 0) (hm : m.protocolState = .additive3)
    (hb : m.profile.isBankAddress a = false) : decodeAccess m a = [.ad3Wait a] := by
  simp [decodeAccess, ha, hm, hb]

end BankCompare

namespace Machine

section AdditiveThreeRows

variable {s : State} {P : Profile} (a : Nat)

theorem exec_ad3Bank (hP : s.profile = some P) :
    exec (.ad3Bank a) s = .next (s.commit s.pendingAddBank) :=
  onInstance_some hP

theorem exec_ad3Wait (hP : s.profile = some P) : exec (.ad3Wait a) s = .next s :=
  onInstance_some hP

end AdditiveThreeRows

/-- Settles O31: the decoder only asks whether some bank address equals the access, and the
committing row reads the pending bank, so the index that matched cannot matter. -/
theorem additiveThreeCommitsOrWaits : Obligations.AdditiveThreeCommitsOrWaits := by
  intro s P a hP
  refine ⟨exec_ad3Bank a hP, exec_ad3Wait a hP, ?_⟩
  intro v rest ha hs he t
  have hPt : t.profile = some P := hP
  constructor
  · intro hbank
    exact step_of_row hP he (decodeAccess_additive3_bank ha hs (isBankAddress_iff.mpr hbank))
      (exec_ad3Bank a hPt)
  · intro hbank
    exact step_of_row hP he
      (decodeAccess_additive3_wait ha hs (isBankAddress_eq_false_iff.mpr hbank))
      (exec_ad3Wait a hPt)

end Machine

end Sys2Proof
end

section
/-! Additive2 (45_fsm_additive.md R158 to R162): the decoder's eight combinations are the parts of
three separate checks, and each part is run by itself. -/

namespace Sys2Proof

theorem decodeAccess_additive2 {m : Mode} {a : Nat} (ha : a ≠ 0) (hm : m.protocolState = .additive2) :
    decodeAccess m a = decodeAdditive2 m.profile a := by
  simp [decodeAccess, ha, hm]

/-- The parts of one Additive2 access, each present by its own check alone (45_fsm_additive.md R158). -/
def additive2Parts (P : Profile) (a : Nat) : List Instr :=
  (if P.addPlus1.accepts a then [.ad2Plus1 a] else []) ++
  ((if P.addPlus2.accepts a then [.ad2Plus2 a] else []) ++
  (if P.add3.accepts a then [.ad2Esc a] else []))

/-- The decoder's rows are the parts; AD2.WAIT stands in only where there is none (R162). -/
theorem decodeAdditive2_eq_parts (P : Profile) (a : Nat) :
    decodeAdditive2 P a =
      if additive2Parts P a = [] then [.ad2Wait a] else additive2Parts P a := by
  unfold decodeAdditive2 additive2Parts
  split <;> simp [*]

/-- Masking with 3 is the truncation to two bits. -/
theorem ofNat_and_three (n : Nat) : BitVec.ofNat 2 (n &&& 3) = BitVec.ofNat 2 n := by
  rw [Nat.and_two_pow_sub_one_eq_mod n 2]
  exact BitVec.eq_of_toNat_eq (by simp)

namespace Machine

/-- The two increments of one access add up modulo 4 (45_fsm_additive.md R159, R160). -/
theorem addedBank_eq (P : Profile) (b : Bank) (a : Nat) :
    addedBank P b a = BitVec.ofNat 2 ((b.toNat + (if P.addPlus1.accepts a then 1 else 0) +
      (if P.addPlus2.accepts a then 2 else 0)) &&& 3) := by
  rw [ofNat_and_three, BitVec.ofNat_add, BitVec.ofNat_add, BitVec.ofNat_toNat, BitVec.setWidth_eq]
  simp only [addedBank, plusOne, plusTwo]
  split_ifs <;> simp

section AdditiveTwoRows

variable {s : State} {P : Profile} (a : Nat)

theorem exec_ad2Plus1 (hP : s.profile = some P) :
    exec (.ad2Plus1 a) s = .next (s.setAdd (plusOne s.pendingAddBank)) :=
  onInstance_some hP

theorem exec_ad2Plus2 (hP : s.profile = some P) :
    exec (.ad2Plus2 a) s = .next (s.setAdd (plusTwo s.pendingAddBank)) :=
  onInstance_some hP

theorem exec_ad2Esc (hP : s.profile = some P) : exec (.ad2Esc a) s = .next (s.goto .additive3) :=
  onInstance_some hP

theorem exec_ad2Wait (hP : s.profile = some P) : exec (.ad2Wait a) s = .next s :=
  onInstance_some hP

end AdditiveTwoRows

section Rows

variable {s t : State} {P : Profile} {a : Nat} {v : View} {rest : List Event} {i : Instr}

/-- A row that is present by a check of its own runs before the others or leaves them the state. -/
theorem runRows_check (c : Bool) (is : List Instr) (hi : exec i s = .next t) :
    runRows ((if c then [i] else []) ++ is) s = runRows is (if c then t else s) := by
  cases c with
  | false => rfl
  | true => exact runRows_cons hi

/-- A check that guards one write of the pending bank passes on a state with that bank. -/
theorem runRows_check_setAdd {b : Bank} (c : Bool) (is : List Instr)
    (hi : exec i s = .next (s.setAdd b)) :
    runRows ((if c then [i] else []) ++ is) s =
      runRows is (s.setAdd (if c then b else s.pendingAddBank)) := by
  rw [runRows_check c is hi]
  cases c <;> rfl

/-- As `step_of_row`, for an ACC that decodes to any number of rows. -/
theorem step_of_rows (hP : s.profile = some P) (he : s.events = .acc a v :: rest)
    (hrun : runRows (decodeAccess (s.mode P) a) ((s.dequeue rest).present v) = .next t) :
    step s = .next (t.respond a) := by
  rw [step_access hP he, hrun, mapNext_next]

end Rows

/-- The state a nonzero access leaves in Additive2, before its answer (45_fsm_additive.md R158): the
escape is taken on the state that holds the increments. -/
def State.additive2Access (s : State) (P : Profile) (a : Nat) : State :=
  let t := s.setAdd (addedBank P s.pendingAddBank a)
  if P.add3.accepts a then t.goto .additive3 else t

section AdditiveTwoAccess

variable {s : State} {P : Profile} (a : Nat)

/-- Check by check: each part runs on what the ones before it left. -/
theorem runRows_additive2Parts (hP : s.profile = some P) :
    runRows (additive2Parts P a) s = .next (s.additive2Access P a) := by
  have hset : ∀ (u : State) (b : Bank), u.profile = some P → (u.setAdd b).profile = some P :=
    fun _ _ hu => hu
  rw [additive2Parts, ← List.append_nil (if P.add3.accepts a then [Instr.ad2Esc a] else []),
    runRows_check_setAdd _ _ (exec_ad2Plus1 a hP),
    runRows_check_setAdd _ _ (exec_ad2Plus2 a (hset _ _ hP)),
    runRows_check _ _ (exec_ad2Esc a (hset _ _ (hset _ _ hP))), runRows_nil]
  rfl

theorem runRows_decodeAdditive2 (hP : s.profile = some P) :
    runRows (decodeAdditive2 P a) s = .next (s.additive2Access P a) := by
  rw [decodeAdditive2_eq_parts, ← runRows_additive2Parts a hP]
  split
  case isTrue hnone => rw [hnone, runRows_singleton, exec_ad2Wait a hP, runRows_nil]
  case isFalse => rfl

/-- In Additive2 the access writes the pending bank and the sequencer state, and nothing else. -/
theorem State.additive2Access_eq (hs : s.protocolState = .additive2) :
    s.additive2Access P a =
      { s with
        pendingAddBank := addedBank P s.pendingAddBank a
        protocolState := if P.add3.accepts a then .additive3 else .additive2 } := by
  unfold State.additive2Access
  split
  · rfl
  · rw [← hs]
    rfl

end AdditiveTwoAccess

/-- Settles O30: the rows of the access reach the state of the three checks made one by one, and the
increments of the pending bank are the sum of the statement. -/
theorem additiveTwoChecksAreIndependent : Obligations.AdditiveTwoChecksAreIndependent := by
  intro s P a v rest hP hs ha he
  have hrun : runRows (decodeAccess (s.mode P) a) ((s.dequeue rest).present v) =
      .next (((s.dequeue rest).present v).additive2Access P a) := by
    rw [decodeAccess_additive2 ha hs]
    exact runRows_decodeAdditive2 a hP
  have hst : ((s.dequeue rest).present v).protocolState = .additive2 := hs
  rw [step_of_rows hP he hrun, State.additive2Access_eq a hst, addedBank_eq]
  rfl

end Machine

end Sys2Proof
end

section
/-! The hint Plain (46_cpu_context.md R178): EN.ALT2 on the bus access alone. -/

namespace Sys2Proof.Machine

section PlainHint

variable {s : State} {P : Profile}

/-- Under Plain the validator answers before any reading of the view. -/
theorem resolveAlternate2_plain (P : Profile) (v : View) :
    resolveAlternate2 P .plain v = some .alternate2 := rfl

theorem exec_enAlt2_plain (a : Nat) (hP : s.profile = some P)
    (hh : s.hostArchitectureHint = .plain) :
    exec (.enAlt2 a) s = .next (s.goto .alternate2) := by
  have hr : resolveAlternate2 P s.hostArchitectureHint s.view = some .alternate2 := by
    rw [hh, resolveAlternate2_plain]
  exact exec_enAlt2_of_resolve a hP hr

end PlainHint

/-- Settles O34: latching the view leaves the hint, so the row decoded for an alt2 address in Enabled
has the same outcome at every view. -/
theorem plainHintTrustsTheBus : Obligations.PlainHintTrustsTheBus := by
  intro s P a hP hh
  refine ⟨exec_enAlt2_plain a hP hh, fun v rest ha hs hp h2 he => ?_⟩
  have hlatched : ((s.dequeue rest).present v).hostArchitectureHint = .plain := hh
  exact step_of_enabled_row hP he ha hs (decodeEnabled_alt2 hp h2)
    (exec_enAlt2_plain a hP hlatched)

end Sys2Proof.Machine
end

section
/-! RST and PEEK (47_system_ops.md R190, R191): the reset of the DecoderState, what a second reset
can still change, and the reading of the committed bank. -/

namespace Sys2Proof.Machine

section SystemRows

variable {s : State} {P : Profile}

theorem exec_rst (hP : s.profile = some P) : exec .rst s = .next ((s.initialise P).answer none) :=
  onInstance_some hP

theorem exec_peek (hP : s.profile = some P) :
    exec .peek s = .next (s.answer (some s.currentBank)) :=
  onInstance_some hP

end SystemRows

/-- The free value of the toggle is one of the two legal ones (10_state.md R33). -/
theorem initialise_toggleLegal (s : State) (P : Profile) : ToggleLegal (s.initialise P) :=
  unspecifyScratch_toggle_legal s

/-- Resetting again draws new scratch values, and in Disabled all scratch registers are stale
(10_state.md R35). -/
theorem sameButStaleScratch_initialise_twice (s : State) (P : Profile) :
    SameButStaleScratch (s.initialise P) ((s.initialise P).initialise P) := by
  constructor
  case alternate | bitwise | toggle | additive => simp [State.initialise_protocolState]
  all_goals rfl

/-- An event's answer is written alike on both sides and touches no scratch register. -/
theorem SameButStaleScratch.answer {s t : State} (h : SameButStaleScratch s t) (r : Option Bank) :
    SameButStaleScratch (s.answer r) (t.answer r) :=
  { h with result := rfl }

/-- Settles O43: the first RST reaches the reset state, and a second one resets that state again. -/
theorem rstRestoresStartingBank : Obligations.RstRestoresStartingBank := by
  intro s P hP
  have hagain : exec .rst ((s.initialise P).answer none) =
      .next (((s.initialise P).initialise P).answer none) :=
    exec_rst (P := P) hP
  exact ⟨(s.initialise P).answer none, exec_rst hP, rfl, rfl, rfl, rfl, initialise_toggleLegal s P,
    rfl, rfl, rfl, rfl, rfl, rfl, _, hagain, (sameButStaleScratch_initialise_twice s P).answer none⟩

/-- Settles O44: PEEK only answers, whatever state the sequencer is in. -/
theorem peekReturnsCommittedBank : Obligations.PeekReturnsCommittedBank :=
  fun _ _ hP => exec_peek hP

end Sys2Proof.Machine
end

section
/-! Runs after set-up (60_exceptions.md R202): the rows of CFG and HINT aside, every row completes on
a ready state and keeps its set-up, and no other event is decoded to those two. -/

namespace Sys2Proof

/-- The rows of the set-up events CFG and HINT (70_reset_and_hazards.md R226). -/
def Instr.isSetUp (i : Instr) : Bool :=
  match i with
  | .cfg _ | .hint _ => true
  | _ => false

section AccessRows

variable {P : Profile} {a : Nat}

theorem decodeEnabled_isSetUp : (decodeEnabled P a).isSetUp = false := by
  unfold decodeEnabled
  repeat' split
  all_goals rfl

theorem decodeBitwise2_isSetUp {t : Bank} : (decodeBitwise2 P t a).isSetUp = false := by
  unfold decodeBitwise2
  split_ifs <;> rfl

theorem decodeAdditive2_isSetUp : ∀ i ∈ decodeAdditive2 P a, i.isSetUp = false := by
  unfold decodeAdditive2
  split <;> simp [Instr.isSetUp]

/-- An access is decoded to rows of the transition map only (30_encoding.md R71). -/
theorem decodeAccess_isSetUp {m : Mode} : ∀ i ∈ decodeAccess m a, i.isSetUp = false := by
  unfold decodeAccess
  split
  case isTrue => simp [Instr.isSetUp]
  case isFalse =>
    cases m.protocolState
    case additive2 => exact decodeAdditive2_isSetUp
    all_goals simp only [List.forall_mem_singleton]
    case enabled => exact decodeEnabled_isSetUp
    case bitwise2 => exact decodeBitwise2_isSetUp
    case disabled => rfl
    all_goals split <;> rfl

end AccessRows

namespace Machine

/-- From `s` to `t` neither the profile nor the hint has changed, which is all that `Ready` reads, and
no event was taken. -/
structure KeepsSetUp (s t : State) : Prop where
  profile : t.profile = s.profile
  hint : t.hostArchitectureHint = s.hostArchitectureHint
  events : t.events = s.events

section Keeps

variable {s t u : State}

theorem KeepsSetUp.trans (hst : KeepsSetUp s t) (htu : KeepsSetUp t u) : KeepsSetUp s u :=
  ⟨htu.profile.trans hst.profile, htu.hint.trans hst.hint, htu.events.trans hst.events⟩

theorem KeepsSetUp.ready (h : KeepsSetUp s t) (hs : Ready s) : Ready t := by
  rwa [Ready, h.profile, h.hint]

theorem keepsSetUp_resolveTo (s : State) (P : Profile) (r : Resolution) :
    KeepsSetUp s (s.resolveTo P r) := by
  cases r <;> exact ⟨rfl, rfl, rfl⟩

theorem keepsSetUp_forward (s : State) : KeepsSetUp s s.forward :=
  ⟨s.forward_profile, s.forward_hostArchitectureHint, s.forward_events⟩

end Keeps

section Rows

variable {s : State}

/-- The host-context rows have an outcome for every word read (46_cpu_context.md R173 to R177). -/
theorem registerCheck_keepsSetUp (n : RegNum) {P : Profile} (hP : s.profile = some P) :
    ∃ t, registerCheck n s = .next t ∧ KeepsSetUp s t :=
  ⟨_, registerCheck_eq n hP, keepsSetUp_resolveTo s P _⟩

/-- Only EN.ALT2 needs the hint; for every other row the selected profile is enough, since its arm
is a total function of it. -/
theorem exec_keepsSetUp {i : Instr} (hi : i.isSetUp = false) (hs : Ready s) :
    ∃ t, exec i s = .next t ∧ KeepsSetUp s t := by
  obtain ⟨hinst, hhint⟩ := hs
  obtain ⟨P, hP⟩ := Option.isSome_iff_exists.mp hinst
  cases i
  case cfg | hint => cases hi
  case enAlt2 a =>
    obtain ⟨r, -, hexec⟩ := exec_enAlt2_resolves a hP hhint
    exact ⟨_, hexec, keepsSetUp_resolveTo s P r⟩
  case ctxA n u => exact registerCheck_keepsSetUp n hP
  case ctxB n u => exact registerCheck_keepsSetUp n hP
  case diag => exact ⟨_, onInstance_some hP, keepsSetUp_forward s⟩
  all_goals exact ⟨_, onInstance_some hP, rfl, rfl, rfl⟩

theorem runRows_keepsSetUp {is : List Instr} (his : ∀ i ∈ is, i.isSetUp = false) (hs : Ready s) :
    ∃ t, runRows is s = .next t ∧ KeepsSetUp s t := by
  induction is generalizing s with
  | nil => exact ⟨s, rfl, rfl, rfl, rfl⟩
  | cons i is ih =>
    obtain ⟨hi, his⟩ := List.forall_mem_cons.mp his
    obtain ⟨t, hexec, hst⟩ := exec_keepsSetUp hi hs
    obtain ⟨u, hrun, htu⟩ := ih his (hst.ready hs)
    exact ⟨u, (runRows_cons hexec).trans hrun, hst.trans htu⟩

end Rows

section Events

variable {s : State}

theorem handleAccess_keepsSetUp (a : Nat) (v : View) (hs : Ready s) :
    ∃ t, handleAccess a v s = .next t ∧ KeepsSetUp s t := by
  have ⟨hinst, _⟩ := hs
  obtain ⟨P, hP⟩ := Option.isSome_iff_exists.mp hinst
  have hlatched : KeepsSetUp s (s.present v) := ⟨rfl, rfl, rfl⟩
  obtain ⟨t, hrun, hkeeps⟩ :=
    runRows_keepsSetUp (decodeAccess_isSetUp (m := s.mode P) (a := a)) (hlatched.ready hs)
  have hanswer : KeepsSetUp t (t.respond a) := ⟨rfl, rfl, rfl⟩
  refine ⟨t.respond a, ?_, (hlatched.trans hkeeps).trans hanswer⟩
  rw [handleAccess, onInstance_some hP, hrun, mapNext_next]

theorem handleEvent_keepsSetUp {e : Event} (he : e.isRuntime = true) (hs : Ready s) :
    ∃ t, handleEvent e s = .next t ∧ KeepsSetUp s t := by
  cases e with
  | cfg pn => cases he
  | hint f => cases he
  | rst => exact exec_keepsSetUp (i := .rst) rfl hs
  | peek => exact exec_keepsSetUp (i := .peek) rfl hs
  | diag => exact exec_keepsSetUp (i := .diag) rfl hs
  | acc a v => exact handleAccess_keepsSetUp a v hs

/-- The progress step: one event is taken, and the state is ready for the next one. -/
theorem step_of_ready {e : Event} {rest : List Event} (hev : s.events = e :: rest)
    (he : e.isRuntime = true) (hs : Ready s) :
    ∃ t, step s = .next t ∧ t.events = rest ∧ Ready t := by
  have htaken : Ready (s.dequeue rest) := hs
  obtain ⟨t, hstep, hkeeps⟩ := handleEvent_keepsSetUp he htaken
  refine ⟨t, ?_, hkeeps.events, hkeeps.ready htaken⟩
  rw [step, stepEvent, hev]
  exact hstep

/-- The run of a list of runtime events, by induction on the list. -/
theorem run_of_ready {es : List Event} (hev : s.events = es) (hes : ∀ e ∈ es, e.isRuntime = true)
    (hs : Ready s) :
    ∃ t : State, Sys2Proof.core.run es.length s = .next t ∧ t.events = [] ∧ Ready t := by
  induction es generalizing s with
  | nil => exact ⟨s, rfl, hev, hs⟩
  | cons e rest ih =>
    obtain ⟨he, hrest⟩ := List.forall_mem_cons.mp hes
    obtain ⟨t, hstep, htev, ht⟩ := step_of_ready hev he hs
    obtain ⟨u, hrun, hu⟩ := ih htev hrest ht
    exact ⟨u, (core_run_next hstep).trans hrun, hu⟩

end Events

/-- Settles O51: readiness is what each step needs and what it keeps. -/
theorem readyRunsToTheEnd : Obligations.ReadyRunsToTheEnd :=
  fun _ hs hes => run_of_ready rfl hes hs

end Machine

end Sys2Proof
end

section
/-! The host opcode word by its four fields (30_encoding.md R66): the mask test reads the two fixed
ones, the register number and the unused field are free. -/

namespace Sys2Proof

/-- A host opcode word laid out as `tttt nnn mmmmmm uuu`. -/
def hostWord (top : BitVec 4) (n : RegNum) (mid : BitVec 6) (u : RegNum) : HostWord :=
  top ++ n ++ mid ++ u

theorem encodeFormA_eq_hostWord (n u : RegNum) :
    encodeFormA n u = hostWord 0b0011#4 n 0b010010#6 u := rfl

theorem encodeFormB_eq_hostWord (n u : RegNum) :
    encodeFormB n u = hostWord 0b1011#4 n 0b101001#6 u := rfl

theorem hostWord_inj {t t' : BitVec 4} {n n' : RegNum} {m m' : BitVec 6} {u u' : RegNum}
    (h : hostWord t n m u = hostWord t' n' m' u') : t = t' ∧ n = n' ∧ m = m' ∧ u = u' := by
  have peel : ∀ {k l : Nat} {x x' : BitVec k} {y y' : BitVec l},
      x ++ y = x' ++ y' → x = x' ∧ y = y' := by
    intro k l x x' y y' he
    have hl := congrArg (BitVec.extractLsb' l k) he
    have hr := congrArg (BitVec.extractLsb' 0 l) he
    rw [BitVec.extractLsb'_append_eq_left, BitVec.extractLsb'_append_eq_left] at hl
    rw [BitVec.extractLsb'_append_eq_right, BitVec.extractLsb'_append_eq_right] at hr
    exact ⟨hl, hr⟩
  obtain ⟨h, hu⟩ := peel h
  obtain ⟨h, hm⟩ := peel h
  obtain ⟨ht, hn⟩ := peel h
  exact ⟨ht, hn, hm, hu⟩

/-- Every 16-bit word has that layout, with the fields the block extracts. -/
theorem hostWord_of_fields (op : HostWord) :
    hostWord (op.extractLsb' 12 4) (registerSelect op) (op.extractLsb' 3 6) (unusedField op) =
      op := by
  unfold hostWord registerSelect unusedField
  rw [BitVec.extractLsb'_append_extractLsb'_eq_extractLsb' (by rfl),
    BitVec.extractLsb'_append_extractLsb'_eq_extractLsb' (by rfl),
    BitVec.extractLsb'_append_extractLsb'_eq_extractLsb' (by rfl)]
  exact BitVec.extractLsb'_eq_self

section Fields

variable (t : BitVec 4) (n : RegNum) (m : BitVec 6) (u : RegNum)

theorem registerSelect_hostWord : registerSelect (hostWord t n m u) = n := by
  obtain ⟨-, hn, -⟩ := hostWord_inj (hostWord_of_fields (hostWord t n m u))
  exact hn

theorem unusedField_hostWord : unusedField (hostWord t n m u) = u := by
  obtain ⟨-, -, -, hu⟩ := hostWord_inj (hostWord_of_fields (hostWord t n m u))
  exact hu

/-- The mask 0xF1F8 keeps the two fixed fields and clears the other two. -/
theorem hostWord_and_mask : hostWord t n m u &&& 0xF1F8#16 = hostWord t 0#3 m 0#3 := by
  have hmask : 0xF1F8#16 = hostWord (BitVec.allOnes 4) 0#3 (BitVec.allOnes 6) 0#3 := by decide
  have hfields : (t ++ n ++ m ++ u) &&& (BitVec.allOnes 4 ++ 0#3 ++ BitVec.allOnes 6 ++ 0#3) =
      t ++ 0#3 ++ m ++ 0#3 := by
    simp only [BitVec.and_append, BitVec.and_allOnes, BitVec.and_zero]
  rw [hmask]
  exact hfields

end Fields

/-- A word passes a mask test exactly when it has that test's two fixed fields. -/
theorem and_mask_eq_iff (op : HostWord) (t : BitVec 4) (m : BitVec 6) :
    op &&& 0xF1F8#16 = hostWord t 0#3 m 0#3 ↔ ∃ n u : RegNum, op = hostWord t n m u := by
  constructor
  · intro h
    rw [← hostWord_of_fields op, hostWord_and_mask] at h
    obtain ⟨ht, -, hm, -⟩ := hostWord_inj h
    exact ⟨registerSelect op, unusedField op, by rw [← ht, ← hm, hostWord_of_fields]⟩
  · rintro ⟨n, u, rfl⟩
    exact hostWord_and_mask t n m u

theorem and_mask_eq_formA_iff (op : HostWord) :
    op &&& 0xF1F8#16 = 0x3090#16 ↔ ∃ n u : RegNum, op = encodeFormA n u := by
  simp only [encodeFormA_eq_hostWord]
  exact and_mask_eq_iff op 0b0011#4 0b010010#6

theorem and_mask_eq_formB_iff (op : HostWord) :
    op &&& 0xF1F8#16 = 0xB148#16 ↔ ∃ n u : RegNum, op = encodeFormB n u := by
  simp only [encodeFormB_eq_hostWord]
  exact and_mask_eq_iff op 0b1011#4 0b101001#6

section Forms

variable {op : HostWord}

theorem isFormA_iff : isFormA op = true ↔ ∃ n u : RegNum, op = encodeFormA n u :=
  beq_iff_eq.trans (and_mask_eq_formA_iff op)

theorem isFormB_iff : isFormB op = true ↔ ∃ n u : RegNum, op = encodeFormB n u :=
  beq_iff_eq.trans (and_mask_eq_formB_iff op)

variable (n u : RegNum)

@[simp] theorem isFormA_encodeFormA : isFormA (encodeFormA n u) = true :=
  isFormA_iff.mpr ⟨n, u, rfl⟩

@[simp] theorem isFormB_encodeFormB : isFormB (encodeFormB n u) = true :=
  isFormB_iff.mpr ⟨n, u, rfl⟩

/-- The fixed fields tell the two forms apart. -/
@[simp] theorem isFormA_encodeFormB : isFormA (encodeFormB n u) = false := by
  rw [← Bool.not_eq_true, isFormA_iff]
  rintro ⟨n', u', h⟩
  rw [encodeFormA_eq_hostWord, encodeFormB_eq_hostWord] at h
  obtain ⟨htop, -⟩ := hostWord_inj h
  exact absurd htop (by decide)

@[simp] theorem registerSelect_encodeFormA : registerSelect (encodeFormA n u) = n :=
  registerSelect_hostWord _ n _ u

@[simp] theorem registerSelect_encodeFormB : registerSelect (encodeFormB n u) = n :=
  registerSelect_hostWord _ n _ u

@[simp] theorem unusedField_encodeFormA : unusedField (encodeFormA n u) = u :=
  unusedField_hostWord _ n _ u

@[simp] theorem unusedField_encodeFormB : unusedField (encodeFormB n u) = u :=
  unusedField_hostWord _ n _ u

theorem decodeHostOp_encodeFormA : decodeHostOp (encodeFormA n u) = some (.ctxA n u) := by
  simp [decodeHostOp]

theorem decodeHostOp_encodeFormB : decodeHostOp (encodeFormB n u) = some (.ctxB n u) := by
  simp [decodeHostOp]

theorem decodeHostOp_eq_none_iff :
    decodeHostOp op = none ↔ isFormA op = false ∧ isFormB op = false := by
  unfold decodeHostOp
  split_ifs with hA hB <;> simp_all

end Forms

/-- Settles O7: each mask test reads the two fixed fields of its layout, and the decoder answers
`none` when both tests fail. -/
theorem hostFormsAreTheTwoLayouts : Obligations.HostFormsAreTheTwoLayouts := by
  intro op
  refine ⟨and_mask_eq_formA_iff op, and_mask_eq_formB_iff op, ?_⟩
  rw [decodeHostOp_eq_none_iff]
  exact and_congr beq_eq_false_iff_ne beq_eq_false_iff_ne

end Sys2Proof
end

section
/-! Decode and encode (30_encoding.md section 4): which codes an instruction is written as, and that
each part of the decoder answers with exactly the rows whose columns hold. -/

namespace Sys2Proof

section Encodings

variable {i : Instr}

theorem encode_eq_hostOp_iff {op : HostWord} :
    encode i = .hostOp op ↔ decodeHostOp op = some i := by
  constructor
  · intro h
    cases i with
    | ctxA n u => cases h; exact decodeHostOp_encodeFormA n u
    | ctxB n u => cases h; exact decodeHostOp_encodeFormB n u
    | _ => nomatch h
  · intro h
    unfold decodeHostOp at h
    split_ifs at h with hA hB
    · obtain ⟨n, u, rfl⟩ := isFormA_iff.mp hA
      cases h
      simp [encode]
    · obtain ⟨n, u, rfl⟩ := isFormB_iff.mp hB
      cases h
      simp [encode]

/-- The validator's answers are the encodings of its three outcome rows (46_cpu_context.md R176 to
R178). -/
theorem decodeOutcome_eq_some_iff {m : Mode} {r : Resolution} :
    decodeOutcome m r = some i ↔ encode i = .outcome r ∧ i.selected m = true := by
  constructor
  · intro h
    cases r <;> simp only [decodeOutcome, Option.ite_none_right_eq_some, Option.some.injEq] at h <;>
      obtain ⟨hc, rfl⟩ := h <;> simp [encode, Instr.selected, hc]
  · rintro ⟨he, hs⟩
    cases i with
    | kAlt3 w => cases he; simpa [decodeOutcome, Instr.selected] using hs
    | kAlt2 => cases he; simpa [decodeOutcome, Instr.selected] using hs
    | kFail => cases he; simpa [decodeOutcome, Instr.selected] using hs
    | _ => nomatch he

theorem encode_eq_cfg_iff {pn : PartNumber} : encode i = .cfg pn ↔ i = .cfg pn := by
  cases i <;> simp [encode]

theorem encode_eq_hint_iff {f : HostFamily} : encode i = .hint f ↔ i = .hint f := by
  cases i <;> simp [encode]

theorem encode_eq_rst_iff : encode i = .rst ↔ i = .rst := by
  cases i <;> simp [encode]

theorem encode_eq_peek_iff : encode i = .peek ↔ i = .peek := by
  cases i <;> simp [encode]

theorem encode_eq_diag_iff : encode i = .diag ↔ i = .diag := by
  cases i <;> simp [encode]

end Encodings

end Sys2Proof
end

section
/-! The transition map (30_encoding.md R71) against the columns of its rows: an access is decoded to
exactly the rows it encodes whose columns hold. -/

namespace Sys2Proof

section Map

variable {m : Mode} {a : Nat}

theorem decodeEnabled_selected (ha : a ≠ 0) (hm : m.protocolState = .enabled) :
    encode (decodeEnabled m.profile a) = .access a ∧
      (decodeEnabled m.profile a).selected m = true := by
  unfold decodeEnabled
  repeat' split
  all_goals simp_all [encode, Instr.selected, Profile.passesToBank, Profile.passesToAlt2,
    Profile.isBankAddress]

theorem decodeBitwise2_selected (ha : a ≠ 0) (hm : m.protocolState = .bitwise2) :
    encode (decodeBitwise2 m.profile m.bitToggle a) = .access a ∧
      (decodeBitwise2 m.profile m.bitToggle a).selected m = true := by
  unfold decodeBitwise2
  split_ifs
  all_goals simp_all [encode, Instr.selected, Profile.noTwiddle]

/-- Each part of Additive2 is present by its own check, AD2.WAIT by the failure of all three
(45_fsm_additive.md R158, R162). -/
theorem mem_decodeAdditive2_iff {P : Profile} {i : Instr} :
    i ∈ decodeAdditive2 P a ↔
      (i = .ad2Plus1 a ∧ P.addPlus1.accepts a = true) ∨
      (i = .ad2Plus2 a ∧ P.addPlus2.accepts a = true) ∨
      (i = .ad2Esc a ∧ P.add3.accepts a = true) ∨
      (i = .ad2Wait a ∧ P.addPlus1.accepts a = false ∧ P.addPlus2.accepts a = false ∧
        P.add3.accepts a = false) := by
  unfold decodeAdditive2
  split <;> simp [*]

/-- Whatever an access is decoded to is a row of that address whose columns hold. -/
theorem selected_of_mem_decodeAccess {i : Instr} (h : i ∈ decodeAccess m a) :
    encode i = .access a ∧ i.selected m = true := by
  by_cases ha : a = 0
  · subst ha
    rw [decodeAccess_zero, List.mem_singleton] at h
    subst h
    exact ⟨rfl, rfl⟩
  cases hm : m.protocolState
  case enabled =>
    rw [decodeAccess_enabled ha hm, List.mem_singleton] at h
    exact h ▸ decodeEnabled_selected ha hm
  case bitwise2 =>
    rw [decodeAccess_bitwise2 ha hm, List.mem_singleton] at h
    exact h ▸ decodeBitwise2_selected ha hm
  case additive2 =>
    rw [decodeAccess_additive2 ha hm, mem_decodeAdditive2_iff] at h
    obtain ⟨rfl, h1⟩ | ⟨rfl, h2⟩ | ⟨rfl, h3⟩ | ⟨rfl, h1, h2, h3⟩ := h <;>
      simp_all [encode, Instr.selected]
  all_goals
    simp only [decodeAccess, ha, hm, if_false, List.mem_singleton] at h
    subst h
  case disabled => simp [encode, Instr.selected, ha, hm]
  all_goals split <;> simp_all [encode, Instr.selected]

/-- A row whose columns hold is among those its address is decoded to. -/
theorem mem_decodeAccess_of_selected {i : Instr} (he : encode i = .access a)
    (hs : i.selected m = true) : i ∈ decodeAccess m a := by
  cases i
  case arm => cases he; simp
  case ctxA | ctxB | kAlt3 | kAlt2 | kFail | cfg | hint | rst | peek | diag => nomatch he
  all_goals
    cases he
    simp only [Instr.selected, Bool.and_eq_true, Bool.not_eq_true', bne_iff_ne, beq_iff_eq,
      and_assoc] at hs
  case disNop =>
    obtain ⟨ha, hm⟩ := hs
    simp [decodeAccess, ha, hm]
  all_goals obtain ⟨ha, hm, hcheck⟩ := hs
  case enBit1 | enAdd1 | enAlt1 | enAlt2 | enBank | enNop =>
    rw [decodeAccess_enabled ha hm, List.mem_singleton]
    simp_all [decodeEnabled, Profile.passesToBank, Profile.passesToAlt2, Profile.isBankAddress]
  case b2Clr0 | b2Set0 | b2Clr1 | b2Set1 | b2Esc | b2Wait =>
    rw [decodeAccess_bitwise2 ha hm, List.mem_singleton]
    simp_all [decodeBitwise2, Profile.noTwiddle]
  case ad2Plus1 | ad2Plus2 | ad2Esc | ad2Wait =>
    rw [decodeAccess_additive2 ha hm, mem_decodeAdditive2_iff]
    simp_all
  all_goals simp [decodeAccess, ha, hm, hcheck]

theorem mem_decodeAccess_iff {i : Instr} :
    i ∈ decodeAccess m a ↔ encode i = .access a ∧ i.selected m = true :=
  ⟨selected_of_mem_decodeAccess, fun ⟨he, hs⟩ => mem_decodeAccess_of_selected he hs⟩

/-- Outside Additive2 the decoder answers with one row (30_encoding.md R71). -/
theorem decodeAccess_eq_singleton (hm : m.protocolState ≠ .additive2) :
    ∃ i, decodeAccess m a = [i] := by
  unfold decodeAccess
  split
  case isTrue => exact ⟨_, rfl⟩
  case isFalse =>
    cases hs : m.protocolState
    case additive2 => exact absurd hs hm
    all_goals exact ⟨_, rfl⟩

theorem decodeAccess_singleton_or_additive2 (m : Mode) (a : Nat) :
    (∃ i, decodeAccess m a = [i]) ∨
      (m.protocolState = .additive2 ∧ decodeAccess m a = decodeAdditive2 m.profile a) := by
  by_cases hm : m.protocolState = .additive2
  · by_cases ha : a = 0
    · exact .inl ⟨.arm, by rw [ha, decodeAccess_zero]⟩
    · exact .inr ⟨hm, decodeAccess_additive2 ha hm⟩
  · exact .inl (decodeAccess_eq_singleton hm)

theorem decodeAccess_ne_nil : decodeAccess m a ≠ [] := by
  obtain ⟨i, hi⟩ | ⟨-, hd⟩ := decodeAccess_singleton_or_additive2 m a
  · simp [hi]
  · rw [hd, decodeAdditive2]
    split <;> simp

end Map

section Decoder

variable {m : Mode} {c : Code} {i : Instr}

theorem toList_decode_hostOp {op : HostWord} :
    (decode m (.hostOp op)).toList = (decodeHostOp op).toList := by
  cases h : decodeHostOp op <;> simp [decode, h, Decoded.toList]

theorem toList_decode_outcome {r : Resolution} :
    (decode m (.outcome r)).toList = (decodeOutcome m r).toList := by
  cases h : decodeOutcome m r <;> simp [decode, h, Decoded.toList]

/-- A system event has no columns: it is decoded to the row that is written as it. -/
theorem mem_decode_iff :
    i ∈ (decode m c).toList ↔ encode i = c ∧ i.selected m = true := by
  have hfree : ∀ {j : Instr}, j.selected m = true → (encode i = c ↔ i = j) →
      (i ∈ [j] ↔ encode i = c ∧ i.selected m = true) := by
    intro j hj hij
    rw [List.mem_singleton, hij]
    exact ⟨fun h => ⟨h, h ▸ hj⟩, fun h => h.1⟩
  cases c with
  | access a => exact mem_decodeAccess_iff
  | hostOp op =>
    rw [toList_decode_hostOp, Option.mem_toList, ← encode_eq_hostOp_iff]
    refine ⟨fun h => ⟨h, ?_⟩, fun h => h.1⟩
    cases i with
    | ctxA | ctxB => rfl
    | _ => nomatch h
  | outcome r =>
    rw [toList_decode_outcome, Option.mem_toList]
    exact decodeOutcome_eq_some_iff
  | cfg pn => exact hfree rfl encode_eq_cfg_iff
  | hint f => exact hfree rfl encode_eq_hint_iff
  | rst => exact hfree rfl encode_eq_rst_iff
  | peek => exact hfree rfl encode_eq_peek_iff
  | diag => exact hfree rfl encode_eq_diag_iff

/-- The columns of every row with an address exclude the arming address (42_fsm_global_simple.md
R111). -/
theorem wellFormed_of_selected (hs : i.selected m = true) : i.wellFormed = true := by
  cases i <;> simp_all [Instr.selected, Instr.wellFormed]

theorem rows_of_mem {d : Decoded} (h : i ∈ d.toList) : ∃ is, d = .rows is ∧ i ∈ is := by
  cases d with
  | rows is => exact ⟨is, rfl, h⟩
  | rejected why => nomatch h

/-- Only an access in Additive2 is decoded to several rows. -/
theorem decode_eq_singleton {is : List Instr} (hm : m.protocolState ≠ .additive2)
    (hd : decode m c = .rows is) : ∃ j, is = [j] := by
  cases c with
  | access a =>
    obtain ⟨j, hj⟩ := decodeAccess_eq_singleton (a := a) hm
    cases hd
    exact ⟨j, hj⟩
  | hostOp op =>
    simp only [decode] at hd
    split at hd <;> cases hd
    exact ⟨_, rfl⟩
  | outcome r =>
    simp only [decode] at hd
    split at hd <;> cases hd
    exact ⟨_, rfl⟩
  | cfg | hint | rst | peek | diag => cases hd; exact ⟨_, rfl⟩

end Decoder

/-- Settles O9, code by code: the rows of an access by the transition map, a host word by its
layout, an outcome by its columns, a system event by its name. -/
theorem decodesExactlyWhenEncodedAndSelected : Obligations.DecodesExactlyWhenEncodedAndSelected :=
  fun _ _ _ => mem_decode_iff

/-- Settles O10: O9 puts the instruction among the rows of its encoding, and says of every companion
that it is selected and written alike. -/
theorem encodedInstructionDecodesBack : Obligations.EncodedInstructionDecodesBack := by
  intro m i _ hs
  obtain ⟨is, hd, hi⟩ := rows_of_mem (mem_decode_iff.mpr ⟨rfl, hs⟩)
  refine ⟨is, hd, hi, fun hm => ?_, fun j hj => ?_⟩
  · obtain ⟨j, rfl⟩ := decode_eq_singleton hm hd
    rw [List.mem_singleton.mp hi]
  · have hjd : j ∈ (decode m (encode i)).toList := by rw [hd]; exact hj
    obtain ⟨he, hjs⟩ := mem_decode_iff.mp hjd
    exact ⟨wellFormed_of_selected hjs, hjs, he⟩

/-- Settles O11: the arms an address selects are the rows it is decoded to, which is a list of one
row outside Additive2 and never an empty one. -/
theorem addressSelectsExactlyOneArm : Obligations.AddressSelectsExactlyOneArm := by
  intro m a
  simp only [← mem_decodeAccess_iff]
  constructor
  · intro hm
    obtain ⟨i, hi⟩ := decodeAccess_eq_singleton (a := a) hm
    exact ⟨i, by simp [hi], by simp [hi]⟩
  · exact List.exists_mem_of_ne_nil _ decodeAccess_ne_nil

end Sys2Proof
end

section
/-! The rows that fall back (decision D6) and the row of Disabled (D7): Disabled, Alternate1,
Alternate2 and Additive1, row by row and by the address that selects the row. -/

namespace Sys2Proof

section OneCheck

variable {m : Mode} {a : Nat}

theorem decodeAccess_disabled (ha : a ≠ 0) (hm : m.protocolState = .disabled) :
    decodeAccess m a = [.disNop a] := by
  simp [decodeAccess, ha, hm]

theorem decodeAccess_alternate1_alt2 (ha : a ≠ 0) (hm : m.protocolState = .alternate1)
    (h2 : m.profile.alt2.accepts a = true) : decodeAccess m a = [.a1Alt2 a] := by
  simp [decodeAccess, ha, hm, h2]

theorem decodeAccess_alternate1_miss (ha : a ≠ 0) (hm : m.protocolState = .alternate1)
    (h2 : m.profile.alt2.accepts a = false) : decodeAccess m a = [.a1Miss a] := by
  simp [decodeAccess, ha, hm, h2]

theorem decodeAccess_alternate2_alt3 (ha : a ≠ 0) (hm : m.protocolState = .alternate2)
    (h3 : m.profile.alt3.accepts a = true) : decodeAccess m a = [.a2Alt3 a] := by
  simp [decodeAccess, ha, hm, h3]

theorem decodeAccess_alternate2_miss (ha : a ≠ 0) (hm : m.protocolState = .alternate2)
    (h3 : m.profile.alt3.accepts a = false) : decodeAccess m a = [.a2Miss a] := by
  simp [decodeAccess, ha, hm, h3]

theorem decodeAccess_additive1_add2 (ha : a ≠ 0) (hm : m.protocolState = .additive1)
    (h2 : m.profile.add2.accepts a = true) : decodeAccess m a = [.ad1Add2 a] := by
  simp [decodeAccess, ha, hm, h2]

theorem decodeAccess_additive1_miss (ha : a ≠ 0) (hm : m.protocolState = .additive1)
    (h2 : m.profile.add2.accepts a = false) : decodeAccess m a = [.ad1Miss a] := by
  simp [decodeAccess, ha, hm, h2]

end OneCheck

namespace Machine

section OneCheckRows

variable {s : State} {P : Profile} (a : Nat)

theorem exec_disNop (hP : s.profile = some P) : exec (.disNop a) s = .next s :=
  onInstance_some hP

theorem exec_a1Alt2 (hP : s.profile = some P) :
    exec (.a1Alt2 a) s = .next (s.goto .alternate2) :=
  onInstance_some hP

theorem exec_a1Miss (hP : s.profile = some P) : exec (.a1Miss a) s = .next (s.goto .enabled) :=
  onInstance_some hP

theorem exec_a2Alt3 (hP : s.profile = some P) :
    exec (.a2Alt3 a) s = .next ((s.setAlt (bankField P.altShift a)).goto .alternate3) :=
  onInstance_some hP

theorem exec_a2Miss (hP : s.profile = some P) : exec (.a2Miss a) s = .next (s.goto .enabled) :=
  onInstance_some hP

theorem exec_ad1Add2 (hP : s.profile = some P) :
    exec (.ad1Add2 a) s = .next ((s.setAdd s.currentBank).goto .additive2) :=
  onInstance_some hP

theorem exec_ad1Miss (hP : s.profile = some P) :
    exec (.ad1Miss a) s = .next (s.goto .enabled) :=
  onInstance_some hP

end OneCheckRows

/-- Settles O18: the only row of Disabled but ARM writes nothing. -/
theorem disabledIgnoresNonzeroAddresses : Obligations.DisabledIgnoresNonzeroAddresses := by
  intro s P a hP
  refine ⟨exec_disNop a hP, fun v rest ha hs he => ?_⟩
  exact step_of_row hP he (decodeAccess_disabled ha hs) (exec_disNop a hP)

/-- Settles O19. -/
theorem enabledRowsResults : Obligations.EnabledRowsResults :=
  fun _ _ a i hP =>
    ⟨exec_enBit1 a hP, exec_enAdd1 a hP, exec_enAlt1 a hP, exec_enBank a i hP, exec_enNop a hP⟩

/-- Settles O21: alt2 alone tells the advancing row from the falling-back one. -/
theorem alternateOneAdvancesOrFallsBack : Obligations.AlternateOneAdvancesOrFallsBack := by
  intro s P a hP
  refine ⟨exec_a1Alt2 a hP, exec_a1Miss a hP, fun v rest ha hs he => ?_⟩
  split
  case isTrue h2 =>
    exact step_of_row hP he (decodeAccess_alternate1_alt2 ha hs h2) (exec_a1Alt2 a hP)
  case isFalse h2 =>
    exact step_of_row hP he (decodeAccess_alternate1_miss ha hs (Bool.eq_false_iff.mpr h2))
      (exec_a1Miss a hP)

/-- Settles O22: alt3 alone tells the capturing row from the falling-back one. -/
theorem alternateTwoCapturesOrFallsBack : Obligations.AlternateTwoCapturesOrFallsBack := by
  intro s P a hP
  refine ⟨exec_a2Alt3 a hP, exec_a2Miss a hP, ?_⟩
  intro v rest ha hs he t
  have hPt : t.profile = some P := hP
  constructor
  · intro h3
    exact step_of_row hP he (decodeAccess_alternate2_alt3 ha hs h3) (exec_a2Alt3 a hPt)
  · intro h3
    exact step_of_row hP he (decodeAccess_alternate2_miss ha hs h3) (exec_a2Miss a hPt)

/-- Settles O25: the six rows, the twiddles written as their bit operations. -/
theorem bitwiseTwoRowsResults : Obligations.BitwiseTwoRowsResults :=
  fun _ _ a hP =>
    ⟨exec_b2Clr0 a hP, exec_b2Set0 a hP, exec_b2Clr1 a hP, exec_b2Set1 a hP, exec_b2Esc a hP,
      exec_b2Wait a hP⟩

/-- Settles O28: add2 alone tells the seeding row from the falling-back one. -/
theorem additiveOneSeedsOrFallsBack : Obligations.AdditiveOneSeedsOrFallsBack := by
  intro s P a hP
  refine ⟨exec_ad1Add2 a hP, exec_ad1Miss a hP, ?_⟩
  intro v rest ha hs he t
  have hPt : t.profile = some P := hP
  constructor
  · intro h2
    exact step_of_row hP he (decodeAccess_additive1_add2 ha hs h2) (exec_ad1Add2 a hPt)
  · intro h2
    exact step_of_row hP he (decodeAccess_additive1_miss ha hs h2) (exec_ad1Miss a hPt)

theorem plusOne_eq (b : Bank) : plusOne b = BitVec.ofNat 2 ((b.toNat + 1) &&& 3) := by
  rw [ofNat_and_three, BitVec.ofNat_add, BitVec.ofNat_toNat, BitVec.setWidth_eq, plusOne]

theorem plusTwo_eq (b : Bank) : plusTwo b = BitVec.ofNat 2 ((b.toNat + 2) &&& 3) := by
  rw [ofNat_and_three, BitVec.ofNat_add, BitVec.ofNat_toNat, BitVec.setWidth_eq, plusTwo]

/-- Settles O29: addition in two bits is addition of naturals masked with 3. -/
theorem additiveTwoPartsResults : Obligations.AdditiveTwoPartsResults := by
  intro s P a hP
  simp only [← plusOne_eq, ← plusTwo_eq]
  exact ⟨exec_ad2Plus1 a hP, exec_ad2Plus2 a hP, exec_ad2Esc a hP, exec_ad2Wait a hP⟩

end Machine

end Sys2Proof
end

section
/-! The validator's rows (46_cpu_context.md steps 1 to 6): the three outcome rows, the two accepted
forms, and EN.ALT2 in terms of them. -/

namespace Sys2Proof.Machine

section ValidatorRows

variable {s : State} {P : Profile}

theorem exec_kAlt3 (w : Nat) (hP : s.profile = some P) :
    exec (.kAlt3 w) s = .next ((s.setAlt (bankField P.altShift w)).goto .alternate3) :=
  execKAlt3_eq w hP

theorem exec_kAlt2 (hP : s.profile = some P) : exec .kAlt2 s = .next (s.goto .alternate2) :=
  execKAlt2_eq hP

theorem exec_kFail (hP : s.profile = some P) : exec .kFail s = .next (s.goto .enabled) :=
  execKFail_eq hP

theorem exec_enAlt2_unknown (a : Nat) (hP : s.profile = some P)
    (hh : s.hostArchitectureHint = .unknown) : exec (.enAlt2 a) s = .refused .hintUnknown := by
  rw [exec, execEnAlt2, onInstance_some hP, hh]

/-- Under Introspect the pointer check stands before the opcode check (46_cpu_context.md R171). -/
theorem exec_enAlt2_introspect (a : Nat) (hP : s.profile = some P)
    (hh : s.hostArchitectureHint = .introspect) :
    exec (.enAlt2 a) s =
      if P.alt1.accepts (wordAddress s.view.ip) then opcodeCheck s else execKFail s := by
  rw [exec, execEnAlt2, onInstance_some hP, hh]

/-- The opcode check runs the row the host word decodes to (46_cpu_context.md R173). -/
theorem opcodeCheck_of_some {i : Instr}
    (hi : decodeHostOp (s.view.readWord s.view.ip) = some i) : opcodeCheck s = exec i s := by
  unfold decodeHostOp at hi
  split_ifs at hi with hA hB <;> cases hi
  · simp [opcodeCheck, hA, exec]
  · simp [opcodeCheck, hA, hB, exec]

theorem opcodeCheck_of_none (hn : decodeHostOp (s.view.readWord s.view.ip) = none) :
    opcodeCheck s = exec .kFail s := by
  obtain ⟨hA, hB⟩ := decodeHostOp_eq_none_iff.mp hn
  simp [opcodeCheck, hA, hB, exec]

end ValidatorRows

/-- Settles O32. -/
theorem validatorOutcomesResults : Obligations.ValidatorOutcomesResults :=
  fun _ _ w hP => ⟨exec_kAlt3 w hP, exec_kAlt2 hP, exec_kFail hP⟩

/-- Settles O33: both rows are the register check of `n`, whose result is the validator's answer
made the state. -/
theorem acceptedFormsRunRegisterCheck : Obligations.AcceptedFormsRunRegisterCheck := by
  intro s P n u hP w t
  have hcheck : registerCheck n s = .next t := by
    rw [registerCheck_eq n hP, apply_ite (s.resolveTo P)]
    rfl
  exact ⟨hcheck, hcheck⟩

/-- Settles O36: once the pointer check passes EN.ALT2 is the opcode check, and both failures are
K.FAIL. -/
theorem introspectRunsTheHostForm : Obligations.IntrospectRunsTheHostForm := by
  intro s P a hP hh op
  rw [exec_enAlt2_introspect a hP hh]
  refine ⟨fun h1 => ?_, fun h1 => ?_⟩
  · have hpass : P.alt1.accepts (wordAddress s.view.ip) = true := h1
    rw [if_pos hpass]
    exact ⟨fun i hi => opcodeCheck_of_some hi,
      fun hn => (opcodeCheck_of_none hn).trans (exec_kFail hP)⟩
  · have hfail : P.alt1.accepts (wordAddress s.view.ip) = false := h1
    rw [hfail]
    exact exec_kFail hP

/-- Settles O38: every reading of the validator's function is one of the three. -/
theorem validatorReadsOnlyThreeValues : Obligations.ValidatorReadsOnlyThreeValues := by
  intro P Q v w h1 h3 hip hword hreg
  refine ⟨fun h => ?_, fun v' => ?_⟩
  · cases h with
    | unknown => rfl
    | plain => rfl
    | introspect =>
      rw [← hip] at hword
      simp only [resolveAlternate2, h1, h3, ← hip, ← hword, hreg]
  · rw [resolveAlternate2_plain, resolveAlternate2_plain]

end Sys2Proof.Machine
end

section
/-! Stale scratch registers (10_state.md R30, R35): two states that differ in nothing else are kept
alike by every operation of a row, and a row that reads a scratch register is selected only in a
state in which that register is in progress. -/

namespace Sys2Proof.Machine

theorem State.forward_of_none {s : State} (hs : s.lastAccess = none) : s.forward = s := by
  simp [State.forward, hs]

theorem State.forward_of_some {s : State} {p : Snapshot} (hs : s.lastAccess = some p) :
    s.forward = { s with sink := p :: s.sink } := by
  simp [State.forward, hs]

namespace SameButStaleScratch

section Updates

variable {s t : State} (h : SameButStaleScratch s t)

include h

theorem present (v : View) : SameButStaleScratch (s.present v) (t.present v) :=
  { h with view := rfl }

theorem dequeue (rest : List Event) : SameButStaleScratch (s.dequeue rest) (t.dequeue rest) :=
  { h with events := rfl }

theorem setHint (f : Hint) : SameButStaleScratch (s.setHint f) (t.setHint f) :=
  { h with hint := rfl }

theorem setProfile (P : Profile) : SameButStaleScratch (s.setProfile P) (t.setProfile P) :=
  { h with profile := rfl }

/-- Any move is kept alike whose new state has its registers in progress alike. -/
theorem goto {p : ProtocolState}
    (halt : p = .alternate3 → s.pendingAltBank = t.pendingAltBank)
    (hbit : p = .bitwise2 ∨ p = .bitwise3 → s.pendingBitBank = t.pendingBitBank)
    (htoggle : p = .bitwise2 → s.bitToggle = t.bitToggle)
    (hadd : p = .additive2 ∨ p = .additive3 → s.pendingAddBank = t.pendingAddBank) :
    SameButStaleScratch (s.goto p) (t.goto p) :=
  { h with
    protocolState := rfl, alternate := halt, bitwise := hbit, toggle := htoggle, additive := hadd }

/-- In the six states of no capture and no pending bank all scratch registers are stale. -/
theorem goto_idle {p : ProtocolState}
    (hp : p ∈ [.disabled, .enabled, .alternate1, .alternate2, .bitwise1, .additive1]) :
    SameButStaleScratch (s.goto p) (t.goto p) := by
  simp only [List.mem_cons, List.not_mem_nil, or_false] at hp
  obtain rfl | rfl | rfl | rfl | rfl | rfl := hp <;>
    exact h.goto (by simp) (by simp) (by simp) (by simp)

theorem commit {b c : Bank} (hbc : b = c) : SameButStaleScratch (s.commit b) (t.commit c) := by
  subst hbc
  have hbank : SameButStaleScratch (s.setBank b) (t.setBank b) := { h with currentBank := rfl }
  exact hbank.goto_idle (by decide)

theorem capture (b : Bank) :
    SameButStaleScratch ((s.setAlt b).goto .alternate3) ((t.setAlt b).goto .alternate3) := by
  have hset : SameButStaleScratch (s.setAlt b) (t.setAlt b) := { h with alternate := fun _ => rfl }
  exact hset.goto (fun _ => rfl) (by simp) (by simp) (by simp)

theorem seedBits (b : Bank) :
    SameButStaleScratch (((s.setBits s.currentBank).setToggle b).goto .bitwise2)
      (((t.setBits t.currentBank).setToggle b).goto .bitwise2) := by
  have hset : SameButStaleScratch ((s.setBits s.currentBank).setToggle b)
      ((t.setBits t.currentBank).setToggle b) :=
    { h with bitwise := fun _ => h.currentBank, toggle := fun _ => rfl }
  exact hset.goto (by simp) (fun _ => h.currentBank) (fun _ => rfl) (by simp)

theorem twiddle (f : Bank → Bank) : SameButStaleScratch (s.twiddle f) (t.twiddle f) :=
  { h with
    bitwise := fun hp => congrArg f (h.bitwise hp)
    toggle := fun hp => congrArg toggleFlip (h.toggle hp) }

theorem seedAdd :
    SameButStaleScratch ((s.setAdd s.currentBank).goto .additive2)
      ((t.setAdd t.currentBank).goto .additive2) := by
  have hset : SameButStaleScratch (s.setAdd s.currentBank) (t.setAdd t.currentBank) :=
    { h with additive := fun _ => h.currentBank }
  exact hset.goto (by simp) (by simp) (by simp) (fun _ => h.currentBank)

theorem increment (f : Bank → Bank) :
    SameButStaleScratch (s.setAdd (f s.pendingAddBank)) (t.setAdd (f t.pendingAddBank)) :=
  { h with additive := fun hp => congrArg f (h.additive hp) }

theorem resolveTo (P : Profile) (r : Resolution) :
    SameButStaleScratch (s.resolveTo P r) (t.resolveTo P r) := by
  cases r with
  | alternate3 w => exact h.capture _
  | alternate2 => exact h.goto_idle (by decide)
  | enabled => exact h.goto_idle (by decide)

/-- The free values drawn by the two sides may differ, and in Disabled all of them are stale. -/
theorem initialise (P : Profile) : SameButStaleScratch (s.initialise P) (t.initialise P) := by
  refine { h with
    protocolState := rfl, currentBank := rfl
    alternate := ?_, bitwise := ?_, toggle := ?_, additive := ?_ }
  all_goals simp

theorem create (P : Profile) : SameButStaleScratch (s.create P) (t.create P) :=
  { ((h.initialise P).setProfile P).setHint .unknown with accessed := rfl, lastAccess := rfl }

theorem respond (a : Nat) : SameButStaleScratch (s.respond a) (t.respond a) :=
  { h with
    result := congrArg some h.currentBank
    lastAccess := by simp [h.currentBank, h.protocolState]
    accessed := rfl }

theorem forward : SameButStaleScratch s.forward t.forward := by
  cases ht : t.lastAccess with
  | none =>
    rw [State.forward_of_none (h.lastAccess.trans ht), State.forward_of_none ht]
    exact h
  | some p =>
    rw [State.forward_of_some (h.lastAccess.trans ht), State.forward_of_some ht]
    exact { h with sink := congrArg (p :: ·) h.sink }

end Updates

end SameButStaleScratch

/-- Two outcomes no observer can tell apart: the same stop, or states that are alike. -/
inductive AlikeOutcome : Result → Result → Prop where
  | next {s t : State} : SameButStaleScratch s t → AlikeOutcome (.next s) (.next t)
  | fault (e : Fault) : AlikeOutcome (.fault e) (.fault e)
  | refused (e : Refusal) : AlikeOutcome (.refused e) (.refused e)

theorem AlikeOutcome.mapNext {r r' : Result} {f : State → State} (h : AlikeOutcome r r')
    (hf : ∀ s t, SameButStaleScratch s t → SameButStaleScratch (f s) (f t)) :
    AlikeOutcome (mapNext f r) (mapNext f r') := by
  cases h with
  | next h => exact .next (hf _ _ h)
  | fault e => exact .fault e
  | refused e => exact .refused e

section Alike

variable {s t : State} (h : SameButStaleScratch s t)

include h

theorem onInstance_alike {k k' : Profile → Result}
    (hk : ∀ P, s.profile = some P → AlikeOutcome (k P) (k' P)) :
    AlikeOutcome (onInstance s k) (onInstance t k') := by
  cases hP : s.profile with
  | none =>
    rw [onInstance_none hP, onInstance_none (h.profile ▸ hP)]
    exact .refused _
  | some P =>
    rw [onInstance_some hP, onInstance_some (h.profile ▸ hP)]
    exact hk P hP

theorem registerCheck_alike (n : RegNum) :
    AlikeOutcome (registerCheck n s) (registerCheck n t) := by
  refine onInstance_alike h fun P hP => ?_
  rw [h.view, execKAlt3_eq _ hP, execKAlt3_eq _ (h.profile ▸ hP), execKFail_eq hP,
    execKFail_eq (h.profile ▸ hP)]
  split
  · exact .next (h.resolveTo P _)
  · exact .next (h.resolveTo P _)

theorem exec_enAlt2_alike (a : Nat) : AlikeOutcome (exec (.enAlt2 a) s) (exec (.enAlt2 a) t) := by
  cases hP : s.profile with
  | none =>
    rw [exec, exec, execEnAlt2, execEnAlt2, onInstance_none hP, onInstance_none (h.profile ▸ hP)]
    exact .refused _
  | some P =>
    have hPt : t.profile = some P := h.profile ▸ hP
    by_cases hh : s.hostArchitectureHint = .unknown
    · rw [exec_enAlt2_unknown a hP hh, exec_enAlt2_unknown a hPt (h.hint ▸ hh)]
      exact .refused _
    · obtain ⟨r, hr, hexec⟩ := exec_enAlt2_resolves a hP hh
      rw [h.hint, h.view] at hr
      rw [hexec, exec_enAlt2_of_resolve a hPt hr]
      exact .next (h.resolveTo P r)

theorem exec_cfg_alike (pn : PartNumber) : AlikeOutcome (exec (.cfg pn) s) (exec (.cfg pn) t) := by
  simp only [exec, execCfg, h.profile, h.catalog]
  cases t.profile with
  | some _ => exact .refused _
  | none =>
    cases lookupProfile t.catalog pn with
    | none => exact .fault _
    | some P => exact .next ((h.create P).answer none)

theorem exec_hint_alike (f : HostFamily) : AlikeOutcome (exec (.hint f) s) (exec (.hint f) t) := by
  refine onInstance_alike h fun P _ => ?_
  rw [h.hint, h.accessed]
  split_ifs
  · exact .refused _
  · exact .refused _
  · exact .next ((h.setHint _).answer none)

/-- A selected row has alike outcomes on alike states. -/
theorem exec_alike {i : Instr} (hi : ∀ P, s.profile = some P → i.selected (s.mode P) = true) :
    AlikeOutcome (exec i s) (exec i t) := by
  cases i
  case enAlt2 a => exact exec_enAlt2_alike h a
  case ctxA n u => exact registerCheck_alike h n
  case ctxB n u => exact registerCheck_alike h n
  case cfg pn => exact exec_cfg_alike h pn
  case hint f => exact exec_hint_alike h f
  all_goals refine onInstance_alike h fun P hP => .next ?_
  case arm | enBit1 | enAdd1 | enAlt1 | a1Alt2 | a1Miss | a2Miss | ad1Miss | kAlt2 | kFail =>
    exact h.goto_idle (by decide)
  case disNop | enNop | a3Wait | b1Wait | b2Wait | b3Wait | ad2Wait | ad3Wait => exact h
  case enBank a i => exact h.commit rfl
  case a2Alt3 | kAlt3 => exact h.capture _
  case b1Bank => exact h.seedBits _
  case b2Clr0 | b2Set0 | b2Clr1 | b2Set1 => exact h.twiddle _
  case ad1Add2 => exact h.seedAdd
  case ad2Plus1 | ad2Plus2 => exact h.increment _
  case rst => exact (h.initialise P).answer none
  case peek => exact { h with result := congrArg some h.currentBank }
  case diag => exact h.forward
  all_goals
    have hcolumns := hi P hP
    simp only [Instr.selected, State.mode_protocolState, Bool.and_eq_true, beq_iff_eq,
      and_assoc] at hcolumns
    obtain ⟨-, hp, -⟩ := hcolumns
  case a3Alt4 => exact h.commit (h.alternate hp)
  case b3Bank => exact h.commit (h.bitwise (.inr hp))
  case ad3Bank => exact h.commit (h.additive (.inr hp))
  case b2Esc =>
    have hbits := h.bitwise (.inl hp)
    exact h.goto (by simp) (fun _ => hbits) (by simp) (by simp)
  case ad2Esc =>
    have hsum := h.additive (.inl hp)
    exact h.goto (by simp) (by simp) (by simp) (fun _ => hsum)

/-- The toggle is read by the decoder in Bitwise2 alone (44_fsm_bitwise.md R147). -/
theorem decodeAccess_alike (P : Profile) (a : Nat) :
    decodeAccess (t.mode P) a = decodeAccess (s.mode P) a := by
  by_cases hp : s.protocolState = .bitwise2
  · simp only [State.mode, h.protocolState, h.hint, h.toggle hp]
  · have hpt : t.protocolState ≠ .bitwise2 := h.protocolState ▸ hp
    unfold decodeAccess
    simp only [State.mode_protocolState, State.mode_profile, h.protocolState]
    cases hps : t.protocolState
    case bitwise2 => exact absurd hps hpt
    all_goals rfl

/-- An access in Additive2 may run several rows, which make one sum and at most one escape
(45_fsm_additive.md R158). -/
theorem additive2Access_alike (P : Profile) (a : Nat) (hs : s.protocolState = .additive2) :
    SameButStaleScratch (s.additive2Access P a) (t.additive2Access P a) := by
  have hadd := h.increment (addedBank P · a)
  have hsum := hadd.additive (.inl hs)
  unfold State.additive2Access
  split
  · exact hadd.goto (by simp) (by simp) (by simp) (fun _ => hsum)
  · exact hadd

theorem runRows_decodeAccess_alike {P : Profile} (a : Nat) (hP : s.profile = some P) :
    AlikeOutcome (runRows (decodeAccess (s.mode P) a) s)
      (runRows (decodeAccess (t.mode P) a) t) := by
  rw [decodeAccess_alike h]
  obtain ⟨i, hi⟩ | ⟨hp, hd⟩ := decodeAccess_singleton_or_additive2 (s.mode P) a
  · have hmem : i ∈ decodeAccess (s.mode P) a := by simp [hi]
    obtain ⟨-, hsel⟩ := selected_of_mem_decodeAccess hmem
    rw [hi, runRows_singleton, runRows_singleton]
    exact exec_alike h fun Q hQ => Option.some.inj (hP.symm.trans hQ) ▸ hsel
  · rw [hd, State.mode_profile, runRows_decodeAdditive2 a hP,
      runRows_decodeAdditive2 a (h.profile ▸ hP)]
    exact .next (additive2Access_alike h P a hp)

theorem handleEvent_alike (e : Event) : AlikeOutcome (handleEvent e s) (handleEvent e t) := by
  cases e with
  | cfg pn => exact exec_cfg_alike h pn
  | hint f => exact exec_hint_alike h f
  | rst => exact exec_alike h (i := .rst) fun _ _ => rfl
  | peek => exact exec_alike h (i := .peek) fun _ _ => rfl
  | diag => exact exec_alike h (i := .diag) fun _ _ => rfl
  | acc a v =>
    refine onInstance_alike h fun P hP => ?_
    exact (runRows_decodeAccess_alike (h.present v) a hP).mapNext fun _ _ hu => hu.respond a

theorem step_alike : AlikeOutcome (step s) (step t) := by
  simp only [step, stepEvent, h.events]
  cases t.events with
  | nil => exact .refused _
  | cons e rest => exact handleEvent_alike (h.dequeue rest) e

end Alike

/-- By induction on the number of steps: alike states step to alike outcomes. -/
theorem run_alike {s t : State} (k : Nat) (h : SameButStaleScratch s t) :
    AlikeOutcome (Sys2Proof.core.run k s) (Sys2Proof.core.run k t) := by
  induction k generalizing s t with
  | zero => exact .next h
  | succ k ih =>
    have hstep := step_alike h
    generalize hs : step s = r, ht : step t = r' at hstep
    cases hstep with
    | next h =>
      rw [core_run_next hs, core_run_next ht]
      exact ih h
    | fault e =>
      rw [core_run_fault hs, core_run_fault ht]
      exact .fault e
    | refused e =>
      rw [core_run_refused hs, core_run_refused ht]
      exact .refused e

/-- Settles O50: the outcomes of the two runs are alike. -/
theorem staleScratchIsUnobservable : Obligations.StaleScratchIsUnobservable := by
  intro k s t h
  have hrun := run_alike k h
  generalize Sys2Proof.core.run k s = r, Sys2Proof.core.run k t = r' at hrun ⊢
  cases hrun with
  | next h => exact ⟨_, rfl, h⟩
  | fault e => rfl
  | refused e => rfl

end Sys2Proof.Machine
end

section
/-! What an access keeps (10_state.md sections 2 and 5): its arm writes the sequencer, the bank and
the scratch registers only, each by the rules of its mode. -/

namespace Sys2Proof.Machine

/-- From `s` to `u` no input, no output and nothing of the configuration has changed. -/
structure KeepsRest (s u : State) : Prop where
  profile : u.profile = s.profile
  catalog : u.catalog = s.catalog
  hint : u.hostArchitectureHint = s.hostArchitectureHint
  events : u.events = s.events
  view : u.view = s.view

namespace AccessEffect

variable {P : Profile} {a : Nat} {s u : State}

theorem keepsRest (h : AccessEffect P a s u) : KeepsRest s u := by
  cases h <;> exact ⟨rfl, rfl, rfl, rfl, rfl⟩

/-- The toggle is seeded with 0, flipped, or left alone (10_state.md R34). -/
theorem toggleLegal (h : AccessEffect P a s u) (hs : ToggleLegal s) : ToggleLegal u := by
  cases h
  case b1Bank => exact .inl rfl
  case b2Clr0 | b2Set0 | b2Clr1 | b2Set1 => exact toggleFlip_legal hs
  all_goals exact hs

/-- The check that enters a mode takes the mode's capability and a pattern that is present, and the
modes in between need no more than the one before them (10_state.md R36). -/
theorem modeReachable (h : AccessEffect P a s u) (hs : ModeReachable P s.protocolState) :
    ModeReachable P u.protocolState := by
  cases h
  case stay | b2Clr0 | b2Set0 | b2Clr1 | b2Set1 | ad2Add => exact hs
  case arm | resolvedEnabled | a1Miss | a2Miss | ad1Miss | enBank | a3Alt4 | b3Bank | ad3Bank =>
    exact trivial
  case enBit1 _ _ hb =>
    obtain ⟨hcap, hbit⟩ := Profile.startsBitwise_iff.mp hb
    exact ⟨hcap, present_of_accepts hbit⟩
  case enAdd1 _ _ _ hd =>
    obtain ⟨hcap, hadd⟩ := Profile.startsAdditive_iff.mp hd
    exact ⟨hcap, present_of_accepts hadd⟩
  case enAlt1 _ _ _ _ h1 => exact present_of_accepts h1
  case resolvedAlternate3 _ _ _ _ h2 _ _ h3 => exact ⟨present_of_accepts h2, present_of_accepts h3⟩
  case resolvedAlternate2 _ _ _ h2 _ => exact present_of_accepts h2
  case a1Alt2 _ _ h2 => exact present_of_accepts h2
  case a2Alt3 _ hp h3 =>
    rw [hp] at hs
    exact ⟨hs, present_of_accepts h3⟩
  case b1Bank _ hp _ =>
    rw [hp] at hs
    exact hs
  case b2Esc _ hp _ h3 =>
    rw [hp] at hs
    obtain ⟨hcap, hbit⟩ := hs
    exact ⟨hcap, hbit, present_of_accepts h3⟩
  case ad1Add2 _ hp h2 =>
    rw [hp] at hs
    obtain ⟨hcap, hadd⟩ := hs
    exact ⟨hcap, hadd, present_of_accepts h2⟩
  case ad2Esc b _ hp h3 _ =>
    rw [hp] at hs
    obtain ⟨hcap, h1, h2⟩ := hs
    exact ⟨hcap, h1, h2, present_of_accepts h3⟩

/-- Only the four commits write the bank, and they end Disabled (42_fsm_global_simple.md R121). -/
theorem bank_changed (h : AccessEffect P a s u) (hb : u.currentBank ≠ s.currentBank) :
    u.protocolState = .disabled ∧
      (s.protocolState = .enabled ∨ s.protocolState = .alternate3 ∨
        s.protocolState = .bitwise3 ∨ s.protocolState = .additive3) := by
  cases h
  case enBank i _ hp _ _ => exact ⟨rfl, .inl hp⟩
  case a3Alt4 _ hp _ => exact ⟨rfl, .inr (.inl hp)⟩
  case b3Bank _ hp _ => exact ⟨rfl, .inr (.inr (.inl hp))⟩
  case ad3Bank _ hp _ => exact ⟨rfl, .inr (.inr (.inr hp))⟩
  all_goals exact absurd rfl hb

end AccessEffect

/-- The three states of the alternate sequence (43_fsm_alternate.md). -/
def InAlternate (p : ProtocolState) : Prop :=
  p = .alternate1 ∨ p = .alternate2 ∨ p = .alternate3

/-- The alternate sequence is entered at an alt1 address on the bus, at an alt1 pointer of the host,
or on trust in the bus (46_cpu_context.md R171, R178). -/
theorem AccessEffect.entersAlternate {P : Profile} {a : Nat} {s u : State}
    (h : AccessEffect P a s u) (hs : ¬ InAlternate s.protocolState)
    (hu : InAlternate u.protocolState) :
    P.alt1 ≠ .absent ∨ s.hostArchitectureHint = .plain := by
  cases h
  case enAlt1 _ _ _ _ h1 => exact .inl (present_of_accepts h1)
  case resolvedAlternate3 _ _ _ _ _ _ h1 _ => exact .inl (present_of_accepts h1)
  case resolvedAlternate2 _ _ _ _ hh => exact .inr hh
  case a1Alt2 _ hp _ => exact absurd (.inl hp) hs
  case a2Alt3 _ hp _ => exact absurd (.inr (.inl hp)) hs
  case stay | b2Clr0 | b2Set0 | b2Clr1 | b2Set1 | ad2Add => exact absurd hu hs
  all_goals simp [InAlternate] at hu

/-- The state with its event taken and the view of that event latched keeps the views canonical. -/
theorem ViewsCanonical.taken {s : State} {a : Nat} {v : View} {rest : List Event}
    (h : ViewsCanonical s) (he : s.events = .acc a v :: rest) :
    ViewsCanonical ((s.dequeue rest).present v) := by
  obtain ⟨-, hevents⟩ := h
  rw [he, List.forall_mem_cons] at hevents
  exact hevents

theorem ViewsCanonical.dequeue {s : State} {e : Event} {rest : List Event}
    (h : ViewsCanonical s) (he : s.events = e :: rest) : ViewsCanonical (s.dequeue rest) := by
  obtain ⟨hview, hevents⟩ := h
  rw [he, List.forall_mem_cons] at hevents
  obtain ⟨-, hrest⟩ := hevents
  exact ⟨hview, hrest⟩

theorem KeepsRest.viewsCanonical {s u : State} (h : KeepsRest s u) (hs : ViewsCanonical s) :
    ViewsCanonical u := by
  rwa [ViewsCanonical, h.view, h.events]

/-- An access needs a selected profile, and marks the decoder as touched. -/
theorem inv_respond {P : Profile} {a : Nat} {s u : State} (hP : s.profile = some P)
    (htoggle : ToggleLegal s) (hviews : ViewsCanonical s) (hmode : ModeReachable P s.protocolState)
    (h : AccessEffect P a s u) : Inv (u.respond a) := by
  have hkeeps := h.keepsRest
  have hPu : u.profile = some P := hkeeps.profile.trans hP
  refine ⟨h.toggleLegal htoggle, hkeeps.viewsCanonical hviews, ?_, ?_⟩
  · rintro (hnone | hfresh)
    · exact absurd (hPu.symm.trans hnone) (by simp)
    · exact absurd hfresh (by simp)
  · intro Q hQ
    cases hPu.symm.trans hQ
    exact h.modeReachable hmode

/-- The sink is no part of the invariant. -/
theorem Inv.forward {s : State} (h : Inv s) : Inv s.forward := by
  cases hl : s.lastAccess with
  | none => rwa [State.forward_of_none hl]
  | some p =>
    rw [State.forward_of_some hl]
    exact { h with }

/-- Settles O49, by what one step can do: an access by the facts about its arm, a reset by Disabled
and the legal free toggle, the other events by what they leave alone. -/
theorem stepKeepsInvariant : Obligations.StepKeepsInvariant := by
  intro s t hs hstep
  obtain ⟨htoggle, hviews, huntouched, hmode⟩ := hs
  cases step_effect hstep with
  | acc a v rest P u he hP h =>
    exact inv_respond (s := (s.dequeue rest).present v) hP htoggle (hviews.taken he) (hmode P hP) h
  | cfg pn rest P he hP hl =>
    exact ⟨initialise_toggleLegal _ P, hviews.dequeue he, fun _ => rfl, fun _ _ => trivial⟩
  | hint f rest P he hP hh ha => exact ⟨htoggle, hviews.dequeue he, huntouched, hmode⟩
  | rst rest P he hP =>
    exact ⟨initialise_toggleLegal _ P, hviews.dequeue he, fun _ => rfl, fun _ _ => trivial⟩
  | peek rest P he hP => exact ⟨htoggle, hviews.dequeue he, huntouched, hmode⟩
  | diag rest P he hP =>
    exact Inv.forward ⟨htoggle, hviews.dequeue he, huntouched, hmode⟩

/-- Settles O47: before CFG no profile is selected, no view is to come, and the toggle is 0. -/
theorem resetMeetsInvariant : Obligations.ResetMeetsInvariant where
  toggle := .inl rfl
  views := ⟨State.reset_memory_wf, fun _ he => nomatch he⟩
  untouched := fun _ => rfl
  mode := fun _ hP => nomatch hP

/-- Settles O16: the answer is given after the arm, and the arm changes the bank by a commit
only. -/
theorem accessReturnsBankAfterStep : Obligations.AccessReturnsBankAfterStep := by
  intro s t a v rest he hstep
  cases step_effect hstep with
  | acc a v rest P u he' hP h =>
    cases he.symm.trans he'
    exact ⟨rfl, rfl, h.keepsRest.events, h.bank_changed⟩
  | cfg _ _ _ he' | hint _ _ _ he' | rst _ _ he' | peek _ _ he' | diag _ _ he' =>
    exact absurd (he.symm.trans he') (by simp)

/-- Settles O52: CFG stops once a profile is selected, an access and RST write neither, and HINT is
the one event left that writes the hint. -/
theorem configurationIsImmutable : Obligations.ConfigurationIsImmutable := by
  intro s t P e rest hP he hstep
  cases step_effect hstep with
  | acc a v rest Q u _ _ h =>
    have hkeeps := h.keepsRest
    exact ⟨hkeeps.profile.trans hP, hkeeps.catalog, fun _ => hkeeps.hint⟩
  | cfg pn rest Q _ hnone _ => exact absurd (hP.symm.trans hnone) (by simp)
  | hint f rest' Q he' _ _ _ =>
    cases he.symm.trans he'
    exact ⟨hP, rfl, fun hother => absurd rfl (hother f)⟩
  | rst => exact ⟨hP, rfl, fun _ => rfl⟩
  | peek => exact ⟨hP, rfl, fun _ => rfl⟩
  | diag rest' =>
    have hkeeps := keepsSetUp_forward (s.dequeue rest')
    exact ⟨hkeeps.profile.trans hP, State.forward_catalog _, fun _ => hkeeps.hint⟩

/-- Settles O53: only an access moves the sequencer into the sequence, and it does so at an alt1
address or pointer, or under Plain. -/
theorem absentAltOneShutsIntrospectOut : Obligations.AbsentAltOneShutsIntrospectOut := by
  intro s t P hstep hPt h1 hh hs
  have hout : ∀ p : ProtocolState, ¬ InAlternate p ↔
      p ≠ .alternate1 ∧ p ≠ .alternate2 ∧ p ≠ .alternate3 := by
    intro p
    simp [InAlternate]
  rw [← hout] at hs ⊢
  cases step_effect hstep with
  | acc a v rest Q u _ hQ h =>
    have hkeeps := h.keepsRest
    have hQt : Q = P := Option.some.inj (hQ.symm.trans (hkeeps.profile.symm.trans hPt))
    subst hQt
    intro hu
    rcases h.entersAlternate hs hu with habsent | hplain
    · exact habsent h1
    · exact absurd (hplain.symm.trans (hkeeps.hint.symm.trans hh)) (by decide)
  | cfg | rst => simp [InAlternate]
  | hint | peek => exact hs
  | diag => rwa [State.forward_protocolState]

end Sys2Proof.Machine
end

section
/-! Why a step stops (60_exceptions.md): once configured, every row but CFG and HINT completes, or is
EN.ALT2 under the hint Unknown; the one fault is the one of CFG. -/

namespace Sys2Proof.Machine

section Rows

variable {s : State} {P : Profile}

/-- Every row but CFG and HINT completes, with EN.ALT2 the one that needs a settled hint. -/
theorem exec_completes_or_hintUnknown {i : Instr} (hP : s.profile = some P)
    (hi : i.isSetUp = false) :
    (∃ t, exec i s = .next t) ∨
      ((∃ a, i = .enAlt2 a) ∧ s.hostArchitectureHint = .unknown ∧
        exec i s = .refused .hintUnknown) := by
  cases i
  case cfg | hint => cases hi
  case enAlt2 a =>
    by_cases hh : s.hostArchitectureHint = .unknown
    · exact .inr ⟨⟨a, rfl⟩, hh, exec_enAlt2_unknown a hP hh⟩
    · obtain ⟨r, -, hexec⟩ := exec_enAlt2_resolves a hP hh
      exact .inl ⟨_, hexec⟩
  case ctxA n u => exact .inl ⟨_, registerCheck_eq n hP⟩
  case ctxB n u => exact .inl ⟨_, registerCheck_eq n hP⟩
  all_goals exact .inl ⟨_, onInstance_some hP⟩

/-- An access completes, or it is an EN.ALT2 that the hint Unknown refuses. -/
theorem runRows_decodeAccess_completes_or_hintUnknown (a : Nat) (hP : s.profile = some P) :
    (∃ t, runRows (decodeAccess (s.mode P) a) s = .next t) ∨
      (s.hostArchitectureHint = .unknown ∧ (Instr.enAlt2 a).selected (s.mode P) = true ∧
        runRows (decodeAccess (s.mode P) a) s = .refused .hintUnknown) := by
  obtain ⟨i, hi⟩ | ⟨-, hd⟩ := decodeAccess_singleton_or_additive2 (s.mode P) a
  · have hmem : i ∈ decodeAccess (s.mode P) a := by simp [hi]
    obtain ⟨hcode, hsel⟩ := selected_of_mem_decodeAccess hmem
    rw [hi, runRows_singleton]
    obtain ⟨t, hexec⟩ | ⟨⟨b, rfl⟩, hh, hexec⟩ :=
      exec_completes_or_hintUnknown hP (decodeAccess_isSetUp i hmem)
    · exact .inl ⟨t, hexec⟩
    · cases hcode
      exact .inr ⟨hh, hsel, hexec⟩
  · rw [hd, State.mode_profile]
    exact .inl ⟨_, runRows_decodeAdditive2 a hP⟩

end Rows

section SystemRows

variable {s : State} {P : Profile}

theorem exec_cfg_live (pn : PartNumber) (hP : s.profile = some P) :
    exec (.cfg pn) s = .refused .reconfiguration := by
  simp [exec, execCfg, hP]

theorem exec_cfg_known {pn : PartNumber} (hn : s.profile = none)
    (hl : lookupProfile s.catalog pn = some P) :
    exec (.cfg pn) s = .next ((s.create P).answer none) := by
  simp [exec, execCfg, hn, hl]

theorem exec_cfg_undefined {pn : PartNumber} (hn : s.profile = none)
    (hl : lookupProfile s.catalog pn = none) :
    exec (.cfg pn) s = .fault (.configurationError pn) := by
  simp [exec, execCfg, hn, hl, raiseConfigurationError_eq]

theorem exec_hint_first (f : HostFamily) (hP : s.profile = some P)
    (hh : s.hostArchitectureHint = .unknown) (ha : s.accessed = false) :
    exec (.hint f) s = .next ((s.setHint f.hint).answer none) := by
  simp [exec, execHint, onInstance_some hP, hh, ha]

theorem exec_hint_second (f : HostFamily) (hP : s.profile = some P)
    (hh : s.hostArchitectureHint ≠ .unknown) :
    exec (.hint f) s = .refused .hintAlreadySet := by
  simp [exec, execHint, onInstance_some hP, hh]

theorem exec_hint_late (f : HostFamily) (hP : s.profile = some P)
    (hh : s.hostArchitectureHint = .unknown) (ha : s.accessed = true) :
    exec (.hint f) s = .refused .hintAfterAccess := by
  simp [exec, execHint, onInstance_some hP, hh, ha]

theorem exec_diag (hP : s.profile = some P) : exec .diag s = .next s.forward :=
  onInstance_some hP

end SystemRows

/-- What an event can come to once configured, under the mode `m`, with the events that may stop
named. -/
inductive LiveOutcome (m : Mode) : Event → Result → Prop where
  | next (e : Event) (t : State) : LiveOutcome m e (.next t)
  | reconfiguration (pn : PartNumber) : LiveOutcome m (.cfg pn) (.refused .reconfiguration)
  | hintAlreadySet (f : HostFamily) : LiveOutcome m (.hint f) (.refused .hintAlreadySet)
  | hintAfterAccess (f : HostFamily) : LiveOutcome m (.hint f) (.refused .hintAfterAccess)
  | hintUnknown (a : Nat) (v : View) : m.hint = .unknown → (Instr.enAlt2 a).selected m = true →
      LiveOutcome m (.acc a v) (.refused .hintUnknown)

section Steps

variable {s : State} {P : Profile}

theorem step_of_events {e : Event} {rest : List Event} (he : s.events = e :: rest) :
    step s = handleEvent e (s.dequeue rest) := by
  rw [step, stepEvent, he]

theorem handleEvent_live (e : Event) (hP : s.profile = some P) :
    LiveOutcome (s.mode P) e (handleEvent e s) := by
  cases e with
  | cfg pn =>
    rw [handleEvent, exec_cfg_live pn hP]
    exact .reconfiguration pn
  | hint f =>
    rw [handleEvent]
    by_cases hh : s.hostArchitectureHint = .unknown
    · cases ha : s.accessed with
      | false =>
        rw [exec_hint_first f hP hh ha]
        exact .next _ _
      | true =>
        rw [exec_hint_late f hP hh ha]
        exact .hintAfterAccess f
    · rw [exec_hint_second f hP hh]
      exact .hintAlreadySet f
  | rst =>
    rw [handleEvent, exec_rst hP]
    exact .next _ _
  | peek =>
    rw [handleEvent, exec_peek hP]
    exact .next _ _
  | diag =>
    rw [handleEvent, exec_diag hP]
    exact .next _ _
  | acc a v =>
    have hmode : (s.present v).mode P = s.mode P := rfl
    rw [handleEvent, handleAccess, onInstance_some hP, ← hmode]
    obtain ⟨t, hrun⟩ | ⟨hh, hsel, hrun⟩ :=
      runRows_decodeAccess_completes_or_hintUnknown (s := s.present v) a hP
    · rw [hrun]
      exact .next _ _
    · rw [hrun]
      exact .hintUnknown a v hh hsel

theorem handleEvent_without_profile {e : Event} (hn : s.profile = none) (he : ∀ pn, e ≠ .cfg pn) :
    handleEvent e s = .refused .noInstance := by
  cases e with
  | cfg pn => exact absurd rfl (he pn)
  | hint | rst | peek | diag | acc => exact onInstance_none hn

theorem step_live {e : Event} {rest : List Event} (hP : s.profile = some P)
    (he : s.events = e :: rest) : LiveOutcome (s.mode P) e (step s) := by
  rw [step_of_events he]
  exact handleEvent_live (s := s.dequeue rest) e hP

theorem step_no_event (he : s.events = []) : step s = .refused .noEvent := by
  rw [step, stepEvent, he]

end Steps

/-- Settles O14. -/
theorem withoutEventNoStep : Obligations.WithoutEventNoStep :=
  fun _ he => step_no_event he

/-- Settles O13: every event but CFG asks for the profile first. -/
theorem withoutInstanceOnlyCfgRuns : Obligations.WithoutInstanceOnlyCfgRuns := by
  intro s e rest hn he
  rw [step_of_events he]
  cases e with
  | cfg pn => rfl
  | hint | rst | peek | diag | acc => exact handleEvent_without_profile hn (by simp)

/-- Settles O12: the one row decoded is the row run, on the state with the event taken and, for an
access, the view latched. -/
theorem stepRunsTheDecodedInstruction : Obligations.StepRunsTheDecodedInstruction := by
  intro s P e rest i hP he hd
  cases e with
  | acc a v =>
    have hrows : decodeAccess (s.mode P) a = [i] := by simpa [decode, Event.code] using hd
    rw [step_access hP he, hrows, runRows_singleton]
    rfl
  | cfg | hint | rst | peek | diag =>
    cases hd
    exact step_of_events he

/-- Settles O39: the fresh decoder is the reset DecoderState with the profile selected, and CFG
touches no input. -/
theorem cfgCreatesInstance : Obligations.CfgCreatesInstance := by
  intro s pn P hn hl
  exact ⟨(s.create P).answer none, exec_cfg_known hn hl, rfl, rfl, rfl, rfl,
    initialise_toggleLegal s P, rfl, rfl, rfl, rfl, rfl, rfl, rfl⟩

/-- Settles O41. -/
theorem liveInstanceIsNotReconfigured : Obligations.LiveInstanceIsNotReconfigured :=
  fun _ _ pn hP => exec_cfg_live pn hP

/-- Settles O42: the hint is looked at before the record of accesses. -/
theorem hintIsSetOnceBeforeAccesses : Obligations.HintIsSetOnceBeforeAccesses := by
  intro s P f hP
  refine ⟨fun hh ha => ?_, exec_hint_second f hP, exec_hint_late f hP⟩
  rw [exec_hint_first f hP hh ha]
  cases f <;> rfl

/-- Settles O45. -/
theorem diagForwardsLastSnapshot : Obligations.DiagForwardsLastSnapshot := by
  intro s P hP
  rw [exec_diag hP]
  exact ⟨fun _ hp => congrArg _ (State.forward_of_some hp),
    fun hn => congrArg _ (State.forward_of_none hn)⟩

/-- Settles O46: the save record and the restore name the same seven fields. -/
theorem restoreBringsBackSevenFields : Obligations.RestoreBringsBackSevenFields :=
  fun _ _ => ⟨rfl, rfl⟩

/-- Settles O48. -/
theorem resetIsDisabledWithoutInstance : Obligations.ResetIsDisabledWithoutInstance :=
  ⟨rfl, rfl, rfl, rfl, rfl, rfl, rfl, rfl, rfl, rfl, rfl⟩

/-- Settles O40: with a profile no event faults, and without one only CFG is executed. -/
theorem configurationErrorOnlyAtCfg : Obligations.ConfigurationErrorOnlyAtCfg := by
  intro s
  refine ⟨fun pn hn hl => exec_cfg_undefined hn hl, fun f hf => ?_⟩
  cases he : s.events with
  | nil => simp [step_no_event he] at hf
  | cons e rest =>
    cases hP : s.profile with
    | some P =>
      have hlive := step_live hP he
      rw [hf] at hlive
      nomatch hlive
    | none =>
      rw [step_of_events he] at hf
      have hn : (s.dequeue rest).profile = none := hP
      cases e with
      | cfg pn =>
        cases hl : lookupProfile s.catalog pn with
        | none =>
          cases (exec_cfg_undefined hn hl).symm.trans hf
          exact ⟨rfl, pn, rest, rfl, hl, rfl⟩
        | some P => nomatch (exec_cfg_known hn hl).symm.trans hf
      | hint | rst | peek | diag | acc =>
        rw [handleEvent_without_profile hn (by simp)] at hf
        cases hf

/-- The columns of EN.ALT2 (42_fsm_global_simple.md R118). -/
theorem selected_enAlt2_iff {m : Mode} {a : Nat} :
    (Instr.enAlt2 a).selected m = true ↔ a ≠ 0 ∧ m.protocolState = .enabled ∧
      m.profile.passesToAlt2 a = true ∧ m.profile.alt2.accepts a = true := by
  simp [Instr.selected, and_assoc]

/-- Settles O37: of all the stops once configured this refusal belongs to EN.ALT2 alone, and the
columns of its row are the conditions of the statement. -/
theorem unknownHintRefusesOnlyAlt2 : Obligations.UnknownHintRefusesOnlyAlt2 := by
  intro s P hP
  refine ⟨fun a hh => exec_enAlt2_unknown a hP hh, ?_, ?_⟩
  · intro hr
    cases he : s.events with
    | nil => simp [step_no_event he] at hr
    | cons e rest =>
      have hlive := step_live hP he
      rw [hr] at hlive
      cases hlive with
      | hintUnknown a v hh hsel =>
        obtain ⟨ha, hs, hp, h2⟩ := selected_enAlt2_iff.mp hsel
        exact ⟨hh, hs, a, v, rest, rfl, ha, hp, h2⟩
  · rintro ⟨hh, hs, a, v, rest, he, ha, hp, h2⟩
    have hexec : exec (.enAlt2 a) ((s.dequeue rest).present v) = .refused .hintUnknown :=
      exec_enAlt2_unknown a hP hh
    rw [step_access hP he, decodeAccess_enabled ha hs, State.mode_profile,
      decodeEnabled_alt2 hp h2, runRows_singleton, hexec, mapNext_refused]

end Sys2Proof.Machine
end

section
/-! The operands (30_encoding.md section 2, 40_trigger_pattern.md, 42_fsm_global_simple.md): the
comparator under its mask, the bank-address comparator, the bank field, the toggle, the shift. -/

namespace Sys2Proof

/-- Settles O2: both sides are masked, and masking twice is masking once. -/
theorem matchIgnoresBitsOutsideMask : Obligations.MatchIgnoresBitsOutsideMask := by
  intro mask value a
  have hmask : ∀ x : Nat, x &&& mask &&& mask = x &&& mask := by
    intro x
    rw [Nat.and_assoc, Nat.and_self]
  refine ⟨?_, ?_, ?_⟩
  · rw [TriggerPattern.accepts_pattern_iff, Nat.and_zero, Nat.and_zero]
  all_goals rw [Bool.eq_iff_iff, TriggerPattern.accepts_pattern_iff,
    TriggerPattern.accepts_pattern_iff, hmask]

/-- Shifting a mask left pairs it with the address shifted right. -/
theorem and_shiftLeft_one (a mask : Nat) : a &&& mask <<< 1 = ((a >>> 1) &&& mask) <<< 1 := by
  refine Nat.eq_of_testBit_eq fun i => ?_
  cases i with
  | zero => simp
  | succ i => simp [Nat.add_comm]

/-- Settles O6: the bit shifted out of the pointer is one no shifted mask selects. -/
theorem pointerShiftEitherWayAgrees : Obligations.PointerShiftEitherWayAgrees := by
  intro mask value ip
  have hvalue : value <<< 1 >>> 1 = value := Nat.shiftLeft_shiftRight value 1
  have hdouble : ∀ x y : Nat, x <<< 1 = y <<< 1 ↔ x = y := by
    intro x y
    omega
  rw [Bool.eq_iff_iff, TriggerPattern.accepts_pattern_iff, TriggerPattern.accepts_pattern_iff,
    and_shiftLeft_one ip, and_shiftLeft_one (value <<< 1), hvalue, hdouble]
  exact Iff.rfl

/-- Settles O5: XOR with 3 acts on the low two bits alone, and there it is the complement. -/
theorem toggleInvertsLowTwoBits : Obligations.ToggleInvertsLowTwoBits := by
  intro a
  have hlow : ∀ n < 4, n ^^^ 3 = 3 - n := by decide
  refine ⟨Nat.xor_zero a, ?_, ?_⟩
  · have hhigh : (a ^^^ 3) / 2 ^ 2 = a / 2 ^ 2 := by
      rw [Nat.xor_div_two_pow]
      exact Nat.xor_zero _
    exact hhigh
  · have hmod : (a ^^^ 3) % 2 ^ 2 = a % 2 ^ 2 ^^^ 3 := Nat.xor_mod_two_pow
    exact hmod.trans (hlow _ (Nat.mod_lt a (by decide)))

theorem bankField_toNat (shift w : Nat) : (bankField shift w).toNat = (w >>> shift) % 4 := by
  rw [bankField, ofNat_and_three, BitVec.toNat_ofNat]

/-- Settles O4: a shift past the width of the word leaves no bit. -/
theorem bankFieldIsTwoShiftedBits : Obligations.BankFieldIsTwoShiftedBits := by
  intro shift w
  refine ⟨bankField_toNat shift w, fun width hw hshift => ?_⟩
  have hnone : w >>> shift = 0 :=
    Nat.shiftRight_eq_zero w shift (hw.trans_le (Nat.pow_le_pow_right (by decide) hshift))
  exact BitVec.eq_of_toNat_eq (by rw [bankField_toNat, hnone]; rfl)

/-- Settles O8: three words of the two layouts and their complement, and the arming address. -/
theorem writtenWordsDecode : Obligations.WrittenWordsDecode :=
  ⟨rfl, rfl, rfl, rfl⟩

namespace Machine

section BankIndex

variable {P : Profile} {a : Nat}

theorem bankIndex_eq_none_iff : P.bankIndex a = none ↔ ∀ i : Bank, bankAddressOf P i ≠ a := by
  rw [← isBankAddress_eq_false_iff, Profile.isBankAddress, Option.isSome_eq_false_iff,
    Option.isNone_iff_eq_none]

/-- The comparator tries the four entries in their order (decision D5). -/
theorem bankIndex_spec {i : Bank} (h : P.bankIndex a = some i) :
    bankAddressOf P i = a ∧ ∀ j : Bank, j < i → bankAddressOf P j ≠ a := by
  unfold Profile.bankIndex at h
  split_ifs at h with h0 h1 h2 h3 <;> cases h
  · exact ⟨h0.symm, fun j hj => absurd hj BitVec.not_lt_zero⟩
  · refine ⟨h1.symm, fun j hj => ?_⟩
    obtain rfl : j = 0 := by bv_omega
    exact Ne.symm h0
  · refine ⟨h2.symm, fun j hj => ?_⟩
    obtain rfl | rfl : j = 0 ∨ j = 1 := by bv_omega
    exacts [Ne.symm h0, Ne.symm h1]
  · refine ⟨h3.symm, fun j hj => ?_⟩
    obtain rfl | rfl | rfl : j = 0 ∨ j = 1 ∨ j = 2 := by bv_omega
    exacts [Ne.symm h0, Ne.symm h1, Ne.symm h2]

/-- Settles O3: the index found is the least, and no two indices are both the least. -/
theorem bankIndexIsLeastEqualEntry : Obligations.BankIndexIsLeastEqualEntry := by
  intro P a
  refine ⟨fun i => ⟨bankIndex_spec, ?_⟩, bankIndex_eq_none_iff⟩
  rintro ⟨hi, hleast⟩
  cases hk : P.bankIndex a with
  | none => exact absurd hi (bankIndex_eq_none_iff.mp hk i)
  | some k =>
    obtain ⟨hka, hkleast⟩ := bankIndex_spec hk
    have hle : ¬ k < i := fun hlt => hleast k hlt hka
    have hge : ¬ i < k := fun hlt => hkleast i hlt hi
    have hki : k = i := by bv_omega
    rw [hki]

end BankIndex

end Machine

end Sys2Proof
end

section
/-! Runs as folds (20_memory.md R48): the handling of one event neither reads nor writes the events
still to come, so a run takes them one by one. -/

namespace Sys2Proof.Machine

section Dequeue

variable {s : State} (r : List Event)

theorem onInstance_dequeue {k k' : Profile → Result}
    (hk : ∀ P, s.profile = some P → k' P = mapNext (State.dequeue · r) (k P)) :
    onInstance (s.dequeue r) k' = mapNext (State.dequeue · r) (onInstance s k) := by
  cases hP : s.profile with
  | none =>
    rw [onInstance_none hP, onInstance_none (s := s.dequeue r) hP, mapNext_refused]
  | some P =>
    rw [onInstance_some hP, onInstance_some (s := s.dequeue r) hP, hk P hP]

theorem resolveTo_dequeue (P : Profile) (x : Resolution) :
    (s.dequeue r).resolveTo P x = (s.resolveTo P x).dequeue r := by
  cases x <;> rfl

theorem forward_dequeue : (s.dequeue r).forward = s.forward.dequeue r := by
  cases hl : s.lastAccess with
  | none => rw [State.forward_of_none hl, State.forward_of_none (s := s.dequeue r) hl]
  | some p => rw [State.forward_of_some hl, State.forward_of_some (s := s.dequeue r) hl]; rfl

theorem registerCheck_dequeue (n : RegNum) :
    registerCheck n (s.dequeue r) = mapNext (State.dequeue · r) (registerCheck n s) := by
  refine onInstance_dequeue r fun P hP => ?_
  have hPr : (s.dequeue r).profile = some P := hP
  rw [execKAlt3_eq _ hP, execKAlt3_eq _ hPr, execKFail_eq hP, execKFail_eq hPr,
    resolveTo_dequeue, resolveTo_dequeue, apply_ite (mapNext _)]
  rfl

theorem exec_enAlt2_dequeue (a : Nat) :
    exec (.enAlt2 a) (s.dequeue r) = mapNext (State.dequeue · r) (exec (.enAlt2 a) s) := by
  refine onInstance_dequeue r fun P hP => ?_
  have hPr : (s.dequeue r).profile = some P := hP
  have hcheck : opcodeCheck (s.dequeue r) = mapNext (State.dequeue · r) (opcodeCheck s) := by
    rw [opcodeCheck_eq, opcodeCheck_eq, registerCheck_dequeue, execKFail_eq hP, execKFail_eq hPr,
      apply_ite (mapNext _)]
    rfl
  simp only [State.dequeue_hostArchitectureHint, State.dequeue_view]
  cases s.hostArchitectureHint with
  | unknown => rfl
  | plain => simp only [execKAlt2_eq hP, execKAlt2_eq hPr]; rfl
  | introspect =>
    simp only [hcheck, execKFail_eq hP, execKFail_eq hPr]
    rw [apply_ite (mapNext _)]
    rfl

theorem exec_cfg_dequeue (pn : PartNumber) :
    exec (.cfg pn) (s.dequeue r) = mapNext (State.dequeue · r) (exec (.cfg pn) s) := by
  simp only [exec, execCfg, State.dequeue_profile, State.dequeue_catalog]
  cases s.profile with
  | some _ => rfl
  | none => cases lookupProfile s.catalog pn <;> rfl

theorem exec_hint_dequeue (f : HostFamily) :
    exec (.hint f) (s.dequeue r) = mapNext (State.dequeue · r) (exec (.hint f) s) := by
  refine onInstance_dequeue r fun P _ => ?_
  rw [apply_ite (mapNext _), apply_ite (mapNext _)]
  rfl

/-- No row reads or writes the events still to come. -/
theorem exec_dequeue (i : Instr) :
    exec i (s.dequeue r) = mapNext (State.dequeue · r) (exec i s) := by
  cases i
  case enAlt2 a => exact exec_enAlt2_dequeue r a
  case ctxA n u => exact registerCheck_dequeue r n
  case ctxB n u => exact registerCheck_dequeue r n
  case cfg pn => exact exec_cfg_dequeue r pn
  case hint f => exact exec_hint_dequeue r f
  case diag =>
    exact onInstance_dequeue r fun _ _ => congrArg Host.Outcome.next (forward_dequeue r)
  all_goals exact onInstance_dequeue r fun _ _ => rfl

theorem runRows_dequeue (is : List Instr) :
    runRows is (s.dequeue r) = mapNext (State.dequeue · r) (runRows is s) := by
  induction is generalizing s with
  | nil => rfl
  | cons i is ih =>
    simp only [runRows, exec_dequeue]
    cases exec i s with
    | next t => exact ih
    | fault e => rfl
    | refused e => rfl

theorem handleEvent_dequeue (e : Event) :
    handleEvent e (s.dequeue r) = mapNext (State.dequeue · r) (handleEvent e s) := by
  cases e with
  | acc a v =>
    refine onInstance_dequeue r fun P _ => ?_
    refine (congrArg (mapNext fun t => t.respond a) 
      (runRows_dequeue (s := s.present v) r (decodeAccess (s.mode P) a))).trans ?_
    cases runRows (decodeAccess (s.mode P) a) (s.present v) <;> rfl
  | cfg pn => exact exec_dequeue r (.cfg pn)
  | hint f => exact exec_dequeue r (.hint f)
  | rst => exact exec_dequeue r .rst
  | peek => exact exec_dequeue r .peek
  | diag => exact exec_dequeue r .diag

end Dequeue

/-- The fold, over any events: what the state held as events before is overwritten. -/
theorem run_dequeue (es rest : List Event) (s : State) :
    Sys2Proof.core.run es.length (s.dequeue (es ++ rest)) =
      mapNext (State.dequeue · rest) (handleEvents es s) := by
  induction es generalizing s with
  | nil => rfl
  | cons e es ih =>
    have hstep : step (s.dequeue (e :: es ++ rest)) =
        mapNext (State.dequeue · (es ++ rest)) (handleEvent e s) :=
      (step_of_events rfl).trans (handleEvent_dequeue (s := s) (es ++ rest) e)
    rw [handleEvents]
    cases hr : handleEvent e s with
    | next t =>
      rw [hr, mapNext_next] at hstep
      exact (core_run_next hstep).trans (ih t)
    | fault f =>
      rw [hr, mapNext_fault] at hstep
      exact core_run_fault hstep
    | refused f =>
      rw [hr, mapNext_refused] at hstep
      exact core_run_refused hstep

/-- Settles O15. -/
theorem runIsFoldOverEvents : Obligations.RunIsFoldOverEvents := by
  intro es rest s he
  have hs : s = (s.dequeue []).dequeue (es ++ rest) := by
    rw [← he]
    rfl
  exact (congrArg _ hs).trans (run_dequeue es rest (s.dequeue []))

end Sys2Proof.Machine
end

section
/-! Runs of accesses: one access at a time, runs put one after the other, and the waiting of
70_reset_and_hazards.md section 4. -/

namespace Sys2Proof

/-- A word that no twiddle and no escape accepts waits in Bitwise2 (44_fsm_bitwise.md R149). -/
theorem decodeBitwise2_wait {P : Profile} {t : Bank} {a : Nat} (hn : P.noTwiddle t a = true)
    (h3 : P.bit3.accepts a = false) : decodeBitwise2 P t a = .b2Wait a := by
  simp only [Profile.noTwiddle, Bool.and_eq_true, Bool.not_eq_true'] at hn
  obtain ⟨⟨⟨hc0, hs0⟩, hc1⟩, hs1⟩ := hn
  simp [decodeBitwise2, hc0, hs0, hc1, hs1, h3]

theorem decodeBitwise2_esc {P : Profile} {t : Bank} {a : Nat} (hn : P.noTwiddle t a = true)
    (h3 : P.bit3.accepts a = true) : decodeBitwise2 P t a = .b2Esc a := by
  simp only [Profile.noTwiddle, Bool.and_eq_true, Bool.not_eq_true'] at hn
  obtain ⟨⟨⟨hc0, hs0⟩, hc1⟩, hs1⟩ := hn
  simp [decodeBitwise2, hc0, hs0, hc1, hs1, h3]

namespace Machine

theorem core_run_add {m : Nat} {s t : State} (n : Nat) (h : Sys2Proof.core.run m s = .next t) :
    Sys2Proof.core.run (m + n) s = Sys2Proof.core.run n t := by
  induction m generalizing s with
  | zero =>
    cases h
    rw [Nat.zero_add]
  | succ m ih =>
    rw [Nat.add_right_comm]
    cases hstep : step s with
    | next u =>
      rw [core_run_next hstep] at h ⊢
      exact ih h
    | fault e => nomatch (core_run_fault hstep).symm.trans h
    | refused e => nomatch (core_run_refused hstep).symm.trans h

section Waiting

variable {P : Profile} {a : Nat}

/-- A stay arm is one row, which writes nothing (30_encoding.md R73). -/
theorem exists_stay_row {m : Mode} (ha : a ≠ 0)
    (hstay : staysPut m.profile m.protocolState m.bitToggle a = true) :
    ∃ i, decodeAccess m a = [i] ∧
      ∀ (s : State) (P : Profile), s.profile = some P → exec i s = .next s := by
  cases hm : m.protocolState
  all_goals
    rw [hm] at hstay
    simp only [staysPut, Bool.and_eq_true, Bool.not_eq_true', Bool.false_eq_true] at hstay
  case disabled => exact ⟨_, decodeAccess_disabled ha hm, fun _ _ hP => exec_disNop a hP⟩
  case enabled =>
    obtain ⟨hpass, hbank⟩ := hstay
    have hnone := bankIndex_eq_none_iff.mpr (isBankAddress_eq_false_iff.mp hbank)
    rw [decodeAccess_enabled ha hm, decodeEnabled_nop hpass hnone]
    exact ⟨_, rfl, fun _ _ hP => exec_enNop a hP⟩
  case alternate3 =>
    exact ⟨_, decodeAccess_alternate3_wait ha hm hstay, fun _ _ hP => exec_a3Wait a hP⟩
  case bitwise1 =>
    exact ⟨_, decodeAccess_bitwise1_wait ha hm hstay, fun _ _ hP => exec_b1Wait a hP⟩
  case bitwise2 =>
    obtain ⟨hn, h3⟩ := hstay
    rw [decodeAccess_bitwise2 ha hm, decodeBitwise2_wait hn h3]
    exact ⟨_, rfl, fun _ _ hP => exec_b2Wait a hP⟩
  case bitwise3 =>
    exact ⟨_, decodeAccess_bitwise3_wait ha hm hstay, fun _ _ hP => exec_b3Wait a hP⟩
  case additive2 =>
    obtain ⟨⟨h1, h2⟩, h3⟩ := hstay
    have hrows : decodeAdditive2 m.profile a = [.ad2Wait a] := by
      simp [decodeAdditive2, h1, h2, h3]
    rw [decodeAccess_additive2 ha hm, hrows]
    exact ⟨_, rfl, fun _ _ hP => exec_ad2Wait a hP⟩
  case additive3 =>
    exact ⟨_, decodeAccess_additive3_wait ha hm hstay, fun _ _ hP => exec_ad3Wait a hP⟩

variable {s : State} {v : View} {rest : List Event}

theorem step_of_stay (hP : s.profile = some P) (he : s.events = .acc a v :: rest) (ha : a ≠ 0)
    (hstay : staysPut P s.protocolState s.bitToggle a = true) :
    step s = .next (((s.dequeue rest).present v).respond a) := by
  obtain ⟨i, hd, hi⟩ := exists_stay_row (m := s.mode P) ha hstay
  exact step_of_row hP he hd (hi _ P hP)

/-- Waiting, by induction on the accesses: each leaves the next one the same DecoderState. -/
theorem run_of_stays {accs : List (Nat × View)} (hP : s.profile = some P)
    (hstay : ∀ av ∈ accs, av.1 ≠ 0 ∧ staysPut P s.protocolState s.bitToggle av.1 = true)
    (he : s.events = accs.map (fun av => Event.acc av.1 av.2) ++ rest) :
    ∃ t : State, Sys2Proof.core.run accs.length s = .next t ∧ t.save = s.save ∧
      t.profile = s.profile ∧ t.events = rest := by
  induction accs generalizing s with
  | nil => exact ⟨s, rfl, rfl, rfl, he⟩
  | cons av accs ih =>
    rw [List.forall_mem_cons] at hstay
    obtain ⟨⟨ha, hav⟩, hstay⟩ := hstay
    have hstep := step_of_stay hP he ha hav
    obtain ⟨t, hrun, hsave, hprofile, hevents⟩ := ih
      (s := ((s.dequeue (accs.map (fun av => .acc av.1 av.2) ++ rest)).present av.2).respond av.1)
      hP hstay rfl
    exact ⟨t, (core_run_next hstep).trans hrun, hsave, hprofile, hevents⟩

end Waiting

/-- Settles O54: waiting for all the events presented. -/
theorem waitingStatesNeverTimeOut : Obligations.WaitingStatesNeverTimeOut := by
  intro accs s P hP hstay he
  exact run_of_stays hP hstay (he.trans (List.append_nil _).symm)

end Machine

end Sys2Proof
end

section
/-! Whole sequences (30_encoding.md R76): each protocol from arming to its commit. A run is peeled
from the front, by one access that decodes to one row or by a phase of accesses in one state. -/

namespace Sys2Proof

theorem decodeAccess_enabled_row {m : Mode} {a : Nat} {i : Instr} (ha : a ≠ 0)
    (hm : m.protocolState = .enabled) (hd : decodeEnabled m.profile a = i) :
    decodeAccess m a = [i] := by
  rw [decodeAccess_enabled ha hm, hd]

namespace Machine

theorem accesses_append (as bs : List Nat) :
    accesses (as ++ bs) = accesses as ++ accesses bs := List.map_append

section Peel

variable {s u : State} {P : Profile} {rest : List Event} {k : Nat} {Q : State → Prop}

theorem run_row {a : Nat} {v : View} {i : Instr} (hP : s.profile = some P)
    (he : s.events = .acc a v :: rest) (hd : decodeAccess (s.mode P) a = [i])
    (hi : exec i ((s.dequeue rest).present v) = .next u)
    (hrest : ∃ t : State, Sys2Proof.core.run k (u.respond a) = .next t ∧ Q t) :
    ∃ t : State, Sys2Proof.core.run (k + 1) s = .next t ∧ Q t := by
  rwa [core_run_next (step_of_row hP he hd hi)]

/-- As `run_of_stays`, for accesses that need no view. -/
theorem run_stays {us : List Nat} (hP : s.profile = some P)
    (hstay : ∀ x ∈ us, x ≠ 0 ∧ staysPut P s.protocolState s.bitToggle x = true)
    (he : s.events = accesses us ++ rest)
    (hrest : ∀ u : State, u.save = s.save → u.profile = some P → u.events = rest →
      ∃ t : State, Sys2Proof.core.run k u = .next t ∧ Q t) :
    ∃ t : State, Sys2Proof.core.run (us.length + k) s = .next t ∧ Q t := by
  have hwait := run_of_stays (accs := us.map fun x => (x, View.zero)) (rest := rest) hP
    (by simpa using hstay) (by simpa [accesses, Function.comp_def] using he)
  rw [List.length_map] at hwait
  obtain ⟨u, hrun, hsave, hprofile, hevents⟩ := hwait
  rw [core_run_add k hrun]
  exact hrest u hsave (hprofile.trans hP) hevents

end Peel

/-- Settles O55: arming, waiting in Enabled, and the row of the least index with that address. -/
theorem simpleModeRoundTrip : Obligations.SimpleModeRoundTrip := by
  intro s P i us hP hne hpass hleast hus he
  have ⟨hfound, _⟩ := bankIndexIsLeastEqualEntry P (bankAddressOf P i)
  have hindex : P.bankIndex (bankAddressOf P i) = some i := (hfound i).mpr ⟨rfl, hleast⟩
  refine run_row hP he (decodeAccess_zero _) (exec_arm hP) ?_
  refine run_stays hP hus (accesses_append us _) fun t hsave hPt hevents => ?_
  have hs : t.protocolState = .enabled := congrArg SaveRecord.protocolState hsave
  refine run_row hPt hevents
    (decodeAccess_enabled_row hne hs (decodeEnabled_bank hpass hindex)) (exec_enBank _ i hPt) ?_
  exact ⟨_, rfl, rfl, rfl, rfl, rfl⟩

/-- Settles O56: five accesses, each the row of its state in the sequence. -/
theorem alternateSequenceCommits : Obligations.AlternateSequenceCommits := by
  intro s P a1 a2 a3 a4 hP ha1 ha2 ha3 ha4 hb hd h1 h2 h3 h4 he
  refine run_row hP he (decodeAccess_zero _) (exec_arm hP) ?_
  refine run_row hP rfl (decodeAccess_enabled_row ha1 rfl (decodeEnabled_alt1 hb hd h1))
    (exec_enAlt1 a1 hP) ?_
  refine run_row hP rfl (decodeAccess_alternate1_alt2 ha2 rfl h2) (exec_a1Alt2 a2 hP) ?_
  refine run_row hP rfl (decodeAccess_alternate2_alt3 ha3 rfl h3) (exec_a2Alt3 a3 hP) ?_
  refine run_row hP rfl (decodeAccess_alternate3_alt4 ha4 rfl h4) (exec_a3Alt4 a4 hP) ?_
  exact ⟨_, rfl, rfl, rfl, rfl, rfl⟩

/-- A word of either form selects the register written in it (decision D11). -/
theorem resolveAlternate2_of_form {P : Profile} {v : View} {n u : RegNum}
    (h1 : P.alt1.accepts (wordAddress v.ip) = true)
    (hword : v.readWord v.ip = encodeFormA n u ∨ v.readWord v.ip = encodeFormB n u)
    (h3 : P.alt3.accepts (wordAddress (v.readReg n)) = true) :
    resolveAlternate2 P .introspect v = some (.alternate3 (wordAddress (v.readReg n))) := by
  obtain hform | hform := hword <;> simp [resolveAlternate2, h1, hform, h3]

/-- Settles O57: the validator answers with the register's word address, and alt4 commits its
bank. -/
theorem validatorSequenceCommits : Obligations.ValidatorSequenceCommits := by
  intro s P a2 a4 v n u hP hh ha2 ha4 hp h2 h1 hword h3 h4 he
  have hanswer : resolveAlternate2 P s.hostArchitectureHint v =
      some (.alternate3 (wordAddress (v.readReg n))) := by
    rw [hh]
    exact resolveAlternate2_of_form h1 hword h3
  refine run_row hP he (decodeAccess_zero _) (exec_arm hP) ?_
  refine run_row hP rfl (decodeAccess_enabled_row ha2 rfl (decodeEnabled_alt2 hp h2))
    (exec_enAlt2_of_resolve a2 hP hanswer) ?_
  refine run_row hP rfl (decodeAccess_alternate3_alt4 ha4 rfl h4) (exec_a3Alt4 a4 hP) ?_
  exact ⟨_, rfl, rfl, rfl, rfl, rfl⟩

section Twiddling

variable {s : State} {P : Profile} {rest : List Event} {k : Nat} {Q : State → Prop}

/-- What an access that does not escape leaves in Bitwise2 is one step of the fold. -/
theorem bitwise2Access_eq_twiddleOne {a : Nat} (h3 : P.bit3.accepts a = false) :
    s.bitwise2Access P a =
      (s.setBits (twiddleOne P (s.pendingBitBank, s.bitToggle) a).1).setToggle
        (twiddleOne P (s.pendingBitBank, s.bitToggle) a).2 := by
  unfold State.bitwise2Access twiddleOne
  simp only [h3, Bool.false_eq_true, if_false]
  split_ifs <;> rfl

/-- The alternation rule, by induction on the accesses: the pending bank and the toggle are folded
together, since each access is compared under the toggle the ones before it left. -/
theorem run_twiddles {ts : List Nat} (hP : s.profile = some P)
    (hs : s.protocolState = .bitwise2) (hts : ∀ x ∈ ts, x ≠ 0 ∧ P.bit3.accepts x = false)
    (he : s.events = accesses ts ++ rest)
    (hrest : ∀ u : State, u.profile = some P → u.protocolState = .bitwise2 → u.events = rest →
      (u.pendingBitBank, u.bitToggle) =
        ts.foldl (twiddleOne P) (s.pendingBitBank, s.bitToggle) →
      ∃ t : State, Sys2Proof.core.run k u = .next t ∧ Q t) :
    ∃ t : State, Sys2Proof.core.run (ts.length + k) s = .next t ∧ Q t := by
  induction ts generalizing s with
  | nil =>
    rw [List.length_nil, Nat.zero_add]
    exact hrest s hP hs he rfl
  | cons x ts ih =>
    obtain ⟨⟨hx, h3⟩, hts⟩ := List.forall_mem_cons.mp hts
    have hexec :=
      exec_decodeBitwise2 (s := (s.dequeue (accesses ts ++ rest)).present View.zero) x hP
    rw [bitwise2Access_eq_twiddleOne h3] at hexec
    rw [List.length_cons, Nat.add_right_comm]
    refine run_row hP he (decodeAccess_bitwise2 hx hs) hexec ?_
    exact ih hP hs hts rfl hrest

end Twiddling

/-- Settles O58: arming, bit1, the seed and the toggle 0, the fold, the escape under the toggle that
is left, and the commit of the pending bank. -/
theorem bitwiseSequenceFoldsTwiddles : Obligations.BitwiseSequenceFoldsTwiddles := by
  intro s P b i j ts e hP hb hbit hi hj he hts hn h3 hevents
  have hbank : ∀ n : Bank, P.isBankAddress (bankAddressOf P n) = true :=
    fun n => isBankAddress_iff.mpr ⟨n, rfl⟩
  refine run_row hP hevents (decodeAccess_zero _) (exec_arm hP) ?_
  refine run_row hP rfl (decodeAccess_enabled_row hb rfl (decodeEnabled_bit1 hbit))
    (exec_enBit1 b hP) ?_
  refine run_row hP rfl (decodeAccess_bitwise1_bank hi rfl (hbank i)) (exec_b1Bank _ hP) ?_
  refine run_twiddles hP rfl hts (accesses_append ts _) fun u hPu hu hlast hfold => ?_
  have hseeded : (u.pendingBitBank, u.bitToggle) =
      ts.foldl (twiddleOne P) (s.currentBank, 0#2) := hfold
  rw [← hseeded] at hn ⊢
  have hesc : decodeAccess (u.mode P) e = [.b2Esc e] := by
    rw [decodeAccess_bitwise2 he hu]
    exact congrArg ([·]) (decodeBitwise2_esc hn h3)
  refine run_row hPu hlast hesc (exec_b2Esc e hPu) ?_
  refine run_row hPu rfl (decodeAccess_bitwise3_bank hj rfl (hbank j)) (exec_b3Bank _ hPu) ?_
  exact ⟨_, rfl, rfl, rfl, rfl⟩

section Adding

variable {s : State} {P : Profile} {rest : List Event} {k : Nat} {Q : State → Prop}

theorem increments_cons (P : Profile) (a : Nat) (us : List Nat) :
    increments P (a :: us) = increments P [a] + increments P us := by
  simp only [increments, List.countP_cons, List.countP_nil]
  omega

theorem addedBank_eq_add_increments (P : Profile) (b : Bank) (a : Nat) :
    addedBank P b a = b + BitVec.ofNat 2 (increments P [a]) := by
  simp only [addedBank, plusOne, plusTwo, increments, List.countP_cons, List.countP_nil]
  cases P.addPlus1.accepts a <;> cases P.addPlus2.accepts a <;> simp [BitVec.add_assoc]

/-- Addition in two bits is addition modulo 4, however the increments are grouped
(45_fsm_additive.md R165). -/
theorem foldl_addedBank (P : Profile) (us : List Nat) (b : Bank) :
    us.foldl (addedBank P) b = b + BitVec.ofNat 2 (increments P us) := by
  induction us generalizing b with
  | nil => exact (BitVec.add_zero b).symm
  | cons a us ih =>
    rw [List.foldl_cons, ih, addedBank_eq_add_increments, increments_cons P a us, BitVec.ofNat_add,
      BitVec.add_assoc]

/-- An access in Additive2, at the front of a run. -/
theorem run_additive2 {a : Nat} {v : View} (hP : s.profile = some P)
    (hs : s.protocolState = .additive2) (ha : a ≠ 0) (he : s.events = .acc a v :: rest)
    (hrest : ∃ t : State, Sys2Proof.core.run k
      ((((s.dequeue rest).present v).additive2Access P a).respond a) = .next t ∧ Q t) :
    ∃ t : State, Sys2Proof.core.run (k + 1) s = .next t ∧ Q t := by
  have hrows : runRows (decodeAccess (s.mode P) a) ((s.dequeue rest).present v) =
      .next (((s.dequeue rest).present v).additive2Access P a) := by
    rw [decodeAccess_additive2 ha hs]
    exact runRows_decodeAdditive2 a hP
  rwa [core_run_next (step_of_rows hP he hrows)]

theorem additive2Access_stays {a : Nat} (h3 : P.add3.accepts a = false) :
    s.additive2Access P a = s.setAdd (addedBank P s.pendingAddBank a) := by
  simp [State.additive2Access, h3]

/-- The escape keeps the increments of its own access (45_fsm_additive.md R161). -/
theorem additive2Access_escapes {a : Nat} (h3 : P.add3.accepts a = true) :
    s.additive2Access P a = (s.setAdd (addedBank P s.pendingAddBank a)).goto .additive3 := by
  simp [State.additive2Access, h3]

/-- The sum, by induction on the accesses that do not escape. -/
theorem run_additions {us : List Nat} (hP : s.profile = some P)
    (hs : s.protocolState = .additive2) (hus : ∀ x ∈ us, x ≠ 0 ∧ P.add3.accepts x = false)
    (he : s.events = accesses us ++ rest)
    (hrest : ∀ u : State, u.profile = some P → u.protocolState = .additive2 → u.events = rest →
      u.pendingAddBank = us.foldl (addedBank P) s.pendingAddBank →
      ∃ t : State, Sys2Proof.core.run k u = .next t ∧ Q t) :
    ∃ t : State, Sys2Proof.core.run (us.length + k) s = .next t ∧ Q t := by
  induction us generalizing s with
  | nil =>
    rw [List.length_nil, Nat.zero_add]
    exact hrest s hP hs he rfl
  | cons x us ih =>
    obtain ⟨⟨hx, h3⟩, hus⟩ := List.forall_mem_cons.mp hus
    rw [List.length_cons, Nat.add_right_comm]
    refine run_additive2 hP hs hx he ?_
    rw [additive2Access_stays h3]
    exact ih hP hs hus rfl hrest

end Adding

/-- Settles O59: arming, add1, the seed, the sum, the escape with its own increments, and the commit
of the pending bank. -/
theorem additiveSequenceAddsModuloFour : Obligations.AdditiveSequenceAddsModuloFour := by
  intro s P a1 a2 us e j hP ha1 hbit hadd ha2 h2 hus he h3 hj hevents
  have hbank : P.isBankAddress (bankAddressOf P j) = true := isBankAddress_iff.mpr ⟨j, rfl⟩
  have hassoc : s.events =
      accesses (0 :: a1 :: a2 :: (us ++ [e, bankAddressOf P j])) := by
    simp [hevents, scriptAddv]
  refine run_row hP hassoc (decodeAccess_zero _) (exec_arm hP) ?_
  refine run_row hP rfl (decodeAccess_enabled_row ha1 rfl (decodeEnabled_add1 hbit hadd))
    (exec_enAdd1 a1 hP) ?_
  refine run_row hP rfl (decodeAccess_additive1_add2 ha2 rfl h2) (exec_ad1Add2 a2 hP) ?_
  refine run_additions hP rfl hus (accesses_append us _) fun u hPu hu hlast hsum => ?_
  refine run_additive2 hPu hu he hlast ?_
  rw [additive2Access_escapes h3]
  refine run_row hPu rfl (decodeAccess_additive3_bank hj rfl hbank) (exec_ad3Bank _ hPu) ?_
  refine ⟨_, rfl, ?_, rfl, rfl⟩
  rw [← foldl_addedBank, List.foldl_concat]
  exact congrArg (addedBank P · e) hsum

end Machine

end Sys2Proof
end
